-- ==== Sys2Proof/Word.lean ====
section
/-! DEFINITION. Word.lean: the widths of the block's registers and values (spec/10_state.md, spec/00_scope.md R9).
All values are unsigned; bit 0 is the least significant; `+` on an N-bit register is addition modulo 2^N (R9),
which is `BitVec` addition. -/

namespace Sys2Proof

/-- A one-bit register, line level or truth value: 1 is true, 0 is false (R9). -/
abbrev Bit := BitVec 1

/-- A bank index or address-select level, 0 to 3 (R26, R30): `N_BANKS` is fixed at 4 (R6). -/
abbrev Bank := BitVec 2

/-- The code of MODE (R21). -/
abbrev ModeCode := BitVec 2

/-- ButtonTimer: `BTIMER_W` is fixed at 8 bits (R6, R23). -/
abbrev Timer := BitVec 8

/-- One byte of the persistent store (R35). -/
abbrev Byte := BitVec 8

/-- The bit of a comparison: 1 for true, 0 for false (R9). -/
def bitOf (b : Bool) : Bit := BitVec.ofBool b

end Sys2Proof
end

