-- ==== Sys2Proof/Config.lean ====
section
/-! DEFINITION. Config.lean: what an implementation fixes (spec/00_scope.md R6) and the values the spec leaves open.
The parameters are fixed for a run and no rule writes them (spec/10_state.md R41); how the model carries them is
assumption log entry 1, their defaults entry 2, the open values entries 4, 5 and 7. -/

namespace Sys2Proof

/-- The levels the outside gives to the two input lines at one sample point (R14, R91): 0 is pressed or driven low,
1 is the pull-up's level. -/
structure Pins where
  /-- the level of the select line (R33) -/
  selN : Bit
  /-- the level the outside gives to the reset line (R34, R91) -/
  rstN : Bit
deriving DecidableEq, Repr, Inhabited

/-- The parameters of R6. A field's default is R6's default; the two OPEN parameters have none. -/
structure Config where
  /-- `T_LONG`: Idle enters Select when the incremented ButtonTimer is greater, 0 to 254 -/
  tLong : Nat := 15
  /-- `T_COMMIT`: Select commits when the incremented ButtonTimer is greater, 0 to 254 -/
  tCommit : Nat := 30
  /-- `T_TICK_MS`: the base delay that ends every tick -/
  tTickMs : Nat := 50
  /-- `T_SETTLE_MS`: the settle delay of SetIndex -/
  tSettleMs : Nat := 20
  /-- `T_PULSE_A_MS`: the first delay of PulseReset -/
  tPulseAMs : Nat := 50
  /-- `T_PULSE_B_MS`: the second delay of PulseReset -/
  tPulseBMs : Nat := 200
  /-- `T_POST_MS`: the delay of PulseReset after the release -/
  tPostMs : Nat := 250
  /-- `SELFTEST_CYCLES`: blink cycles of the boot self-test -/
  selftestCycles : Nat := 10
  /-- `T_SELFTEST_HALF_MS`: the half-cycle of the self-test -/
  tSelftestHalfMs : Nat := 50
  /-- `T_BOOT_SETTLE_MS`: the settle delay before the first tick -/
  tBootSettleMs : Nat := 250
  /-- `FB_TOGGLES`: indicator toggles of the Select-entry double blink, even -/
  fbToggles : Nat := 4
  /-- `T_FB_MS`: the delay after each feedback toggle -/
  tFbMs : Nat := 50
  /-- `T_POLL_MS`: the poll interval of the boot's wait; its default is `T_TICK_MS` -/
  tPollMs : Nat := tTickMs
  /-- `SLOT_IDX`: the address of the kernal-index slot -/
  slotIdx : Nat := 0
  /-- `SLOT_THEME`: the address of the theme slot -/
  slotTheme : Nat := 1
  /-- `FAULT_ADDR`: the level the fault branch forces onto the address-select outputs: OPEN (D17) -/
  faultAddr : Bank
  /-- `ADDR_POWERON`: the address-select level before the boot's first SetIndex: OPEN (D25) -/
  addrPowerOn : Bank
deriving DecidableEq, Repr

/-- `FAULT_ADDR` of the machine at its defaults: OPEN in R6, so a value without a body (entry 4). -/
opaque Config.openFaultAddr : Bank

/-- `ADDR_POWERON` of the machine at its defaults: OPEN in R6, so a value without a body (entry 4). -/
opaque Config.openAddrPowerOn : Bank

/-- What the outside gives at the `n`-th sample point after the listed stimulus has ended: no law constrains it
(R14), so a function without a body (entry 7). -/
opaque Config.freePins : Nat → Pins

/-- Every parameter at R6's default. -/
def Config.default : Config :=
  { faultAddr := Config.openFaultAddr, addrPowerOn := Config.openAddrPowerOn }

/-- What an address of the store that the memory list does not name reads as. DESIGN CHOICE (entry 5, unsafe): the
spec makes the bytes at power-on inputs of the run (R13); 0xFF is the erased byte of R132's remark. -/
def Config.erasedByte : Byte := 0xFF#8

end Sys2Proof
end

