-- ==== Sys2Proof/Machine/State.lean ====
section
/-! DEFINITION. Machine/State.lean: the state of the block (spec/10_state.md R20 to R38), the events it emits
(spec/00_scope.md R8), the reasons a step can stop, and the state right after power-on. -/

namespace Sys2Proof.Machine

/-- The sequencer position (R20). Its 2-bit codes are in `Machine/Operands.lean`; code 11 is never formed. -/
inductive Phase where
  /-- power-on, before the boot -/
  | powerOn
  /-- the boot waits for select to be released -/
  | waitRelease
  /-- the tick loop -/
  | run
deriving DecidableEq, Repr

/-- MODE's code for Idle (R21). -/
abbrev idleMode : ModeCode := 0b00#2

/-- MODE's code for Select (R21). -/
abbrev selectMode : ModeCode := 0b01#2

/-- The block's externally visible behaviour (R8). -/
inductive Event where
  /-- the address-select outputs are driven to `v` -/
  | evAddr (v : Bank)
  /-- the indicator output is driven to `b` -/
  | evLed (b : Bit)
  /-- the reset line's drive is set: 1 actively low, 0 released -/
  | evRst (d : Bit)
  /-- `v` is written to persistent slot `a` -/
  | evStoreWrite (a : Nat) (v : Byte)
  /-- the block blocks for `ms` milliseconds -/
  | evSleep (ms : Nat)
deriving DecidableEq, Repr

/-- A record of the model's sticky fault log (R170, R171). -/
inductive FaultRecord where
  /-- `FAULT_MODE` with the MODE code found at the tick -/
  | faultMode (code : ModeCode)
deriving DecidableEq, Repr

/-- The two slots of the persistent store (R35, R50). -/
inductive Slot where
  /-- the kernal-index slot -/
  | idx
  /-- the theme slot -/
  | theme
deriving DecidableEq, Repr

/-- Reasons the machine stops. There are none: "the system has no halt state; it always keeps ticking" (§7, R13), and
its one exception condition is a branch that goes on (R115, R170). Assumption log entry 10; safe. -/
inductive Fault where
deriving DecidableEq, Repr

/-- Reasons the model gives no next state. -/
inductive Refusal where
  /-- an instruction without a meaning yet: raised by no arm of this model; safe -/
  | notModelled (mnemonic : String)
  /-- a decode word that no rule forms (R76, U1, U2): raised by `step` and by RUN_TICK if the decoder refuses the
  word, which no state's word does; safe -/
  | unformable
  /-- a configuration outside R6's ranges (U4): raised by `step`; safe -/
  | badConfig
  /-- a script line that does not match the phase (R79, U3): raised by `runLine`, never by `step`; safe -/
  | scriptMismatch
deriving DecidableEq, Repr

/-- The whole state. Fields up to `store` are the spec's; the rest are its observables, its fault log and the model's
own fields (INVENTORY.md, '## State'). -/
structure State where
  /-- the parameters of R6: fixed for a run, written by nothing (R41; assumption log entry 1) -/
  cfg : Config
  /-- PHASE (R20) -/
  phase : Phase
  /-- MODE (R21) -/
  mode : ModeCode
  /-- BTIMER, the source's ButtonTimer (R23) -/
  bTimer : Timer
  /-- OB, the edge latch "old_button" (R24) -/
  ob : Bit
  /-- IGN, IgnoreResetFlag (R25) -/
  ign : Bit
  /-- IDX, BankIndex (R26) -/
  idx : Bank
  /-- THEME, ColorTheme (R27) -/
  theme : Bit
  /-- LASTSAVED, the shadow of the persisted index (R29) -/
  lastSaved : Bank
  /-- ADDR_OUT: bit 0 drives A0, bit 1 drives A1 (R30) -/
  addrOut : Bank
  /-- LED_OUT (R31) -/
  ledOut : Bit
  /-- RST_OE: 1 while the core pulls the reset line low (R32) -/
  rstOe : Bit
  /-- SEL_N, the level of the select line at the step's sample point (R33) -/
  selN : Bit
  /-- the level the outside gives to the reset line; RST_N is `State.rstN` (R34, R91) -/
  rstOutside : Bit
  /-- STORE, the persistent bytes by address, in the canonical form of `Memory.wf` (R35, R50) -/
  store : List Host.Cell
  /-- the sticky fault log of the model (R171) -/
  faultLog : List FaultRecord
  /-- the events of the run so far, in order (R7, R13, R59) -/
  trace : List Event
  /-- the outside's levels at the coming sample points (R14); the model's own field -/
  stimulus : List Pins
  /-- samples taken from the free environment so far; the model's own field, a free value's counter -/
  draws : Nat
deriving DecidableEq, Repr

/-- The machine at power-on with a configuration and a store, which are inputs of the run (R13, R38, R190): PHASE is
POWERON and ADDR_OUT is ADDR_POWERON. The other registers are unspecified there; the values below are the model's
(DESIGN CHOICE, assumption log entry 3, unsafe), and no rule reads them before the boot writes them. -/
def State.powerOn (c : Config) (store : List Host.Cell) : State where
  cfg := c
  phase := .powerOn
  mode := 0#2
  bTimer := 0#8
  ob := 0#1
  ign := 0#1
  idx := 0#2
  theme := 0#1
  lastSaved := 0#2
  addrOut := c.addrPowerOn
  ledOut := 0#1
  rstOe := 0#1
  selN := 1#1
  rstOutside := 1#1
  store := store
  faultLog := []
  trace := []
  stimulus := []
  draws := 0

/-- The machine right after power-on, at R6's defaults, with no byte of the store listed. -/
def State.reset : State := State.powerOn Config.default []

end Sys2Proof.Machine
end

