-- ==== Sys2Proof/Machine/Ops.lean ====
section
/-! DEFINITION. Machine/Ops.lean: the pseudocode primitives of spec/00_scope.md R10 over the persistent store
(spec/20_memory.md) and the output latches, the sample point's draw (R14, R93), and taking the one exception
(spec/60_exceptions.md R171, R172) with the power cycle, its only exit (R173). -/

namespace Sys2Proof.Machine

/-! ### The persistent store as a canonical list of cells -/

/-- The byte at an address: an address that is not listed reads as `Config.erasedByte`. -/
def Memory.read (m : List Host.Cell) (a : Nat) : Byte :=
  match m with
  | [] => Config.erasedByte
  | (b, v) :: rest => if a = b then v else Memory.read rest a

/-- The store with `v` at address `a`: the list stays sorted, and writing the byte an unlisted address reads as
removes the entry. -/
def Memory.write (m : List Host.Cell) (a : Nat) (v : Byte) : List Host.Cell :=
  match m with
  | [] => if v = Config.erasedByte then [] else [(a, v)]
  | (b, x) :: rest =>
    if a < b then (if v = Config.erasedByte then (b, x) :: rest else (a, v) :: (b, x) :: rest)
    else if a = b then (if v = Config.erasedByte then rest else (a, v) :: rest)
    else (b, x) :: Memory.write rest a v

/-- The canonical form: addresses strictly rising, and no entry equal to what an unlisted address reads as. -/
abbrev Memory.wf (m : List Host.Cell) : Prop :=
  m.Pairwise (fun c d => c.1 < d.1) ∧ ∀ c ∈ m, c.2 ≠ Config.erasedByte

/-- The address of a slot (R6, R50). Only the two slots exist (D36). -/
def Slot.addr (c : Config) : Slot → Nat
  | .idx => c.slotIdx
  | .theme => c.slotTheme

/-- `zext_8(v)`: the byte written for a register of up to 8 bits (R53). -/
def zext8 {n : Nat} (v : BitVec n) : Byte := v.setWidth 8

/-- The index a kernal-index byte yields: bits 1:0, the rest ignored (R52). -/
def indexOfByte (v : Byte) : Bank := v.extractLsb' 0 2

/-- The theme a theme byte yields: bit 0, the rest ignored (R52). -/
def themeOfByte (v : Byte) : Bit := v.extractLsb' 0 1

/-! ### Primitives (R10) -/

/-- An event is appended to the run's trace (R7, R59). -/
def State.emit (e : Event) (s : State) : State := { s with trace := s.trace ++ [e] }

/-- `Sleep(ms)` emits `EvSleep(ms)` (R10). -/
def State.sleep (ms : Nat) (s : State) : State := s.emit (.evSleep ms)

/-- `MemRead(a, 1)`: the byte in a slot; silent (R10, R51, R56). -/
def State.memRead (s : State) (slot : Slot) : Byte := Memory.read s.store (slot.addr s.cfg)

/-- `MemWrite(a, 1, v)`: sets the slot's byte and emits `EvStoreWrite(a, v)`, one atomic event (R10, R55). -/
def State.memWrite (slot : Slot) (v : Byte) (s : State) : State :=
  { s with store := Memory.write s.store (slot.addr s.cfg) v }.emit (.evStoreWrite (slot.addr s.cfg) v)

/-- `DriveAddr(v)` (R10). -/
def State.driveAddr (v : Bank) (s : State) : State := { s with addrOut := v }.emit (.evAddr v)

/-- `DriveLed(b)` (R10). -/
def State.driveLed (b : Bit) (s : State) : State := { s with ledOut := b }.emit (.evLed b)

/-- `ToggleLed()` is `DriveLed(NOT LED_OUT)` (R10). -/
def State.toggleLed (s : State) : State := s.driveLed (~~~s.ledOut)

/-- `DriveRst(d)` (R10). The driven level is always low (R32, R146). -/
def State.driveRst (d : Bit) (s : State) : State := { s with rstOe := d }.emit (.evRst d)

/-- RST_N, the level of the reset line as the core reads it: 0 while the core pulls it low, otherwise what the outside
gives (R34, R91, R146). -/
def State.rstN (s : State) : Bit := if s.rstOe = 1#1 then 0#1 else s.rstOutside

/-- The environment settles the levels that hold at this step's sample point (R14, R93): the next listed ones, or,
when none is listed, free ones. Nothing reads the lines elsewhere in the step (R7, R93). -/
def State.drawPins (s : State) : State :=
  match s.stimulus with
  | p :: rest => { s with selN := p.selN, rstOutside := p.rstN, stimulus := rest }
  | [] =>
    { s with
      selN := (Config.freePins s.draws).selN
      rstOutside := (Config.freePins s.draws).rstN
      draws := s.draws + 1 }

/-! ### The exception (R170 to R173) -/

/-- `raise FaultMode()`: FAULT_MODE with the MODE code joins the sticky log; the step goes on (R10, R171). Entry saves
nothing: there is no saved pc, cause register, vector or privilege change (R172). -/
def State.raiseFaultMode (s : State) : State := { s with faultLog := s.faultLog ++ [.faultMode s.mode] }

/-- Power off and on. There is no return from the fault but this (R173), and only STORE survives (R184, R35): a fresh
run starts (R13, D28), with an empty trace and log. The configuration and the outside's future go on. Assumption log
entry 18. -/
def State.powerCycle (s : State) : State :=
  { State.powerOn s.cfg s.store with stimulus := s.stimulus, draws := s.draws }

/-! ### Outcomes -/

/-- The outcome with its next state carried on by `f`; a fault or a refusal stays. -/
def thenDo (o : Host.Outcome State Fault Refusal) (f : State → State) : Host.Outcome State Fault Refusal :=
  match o with
  | .next s => .next (f s)
  | .fault r => .fault r
  | .refused r => .refused r

end Sys2Proof.Machine
end

