-- ==== Sys2Proof/Machine/Flags.lean ====
section
/-! DEFINITION. Machine/Flags.lean: the predicates a step computes from its sample and its state: ANY and EXP
(spec/30_encoding.md R73, R74) and the indicator's level (spec/44_indicator.md R155 to R158). -/

namespace Sys2Proof.Machine

/-- `ANY = sel OR rst` (R74). -/
def anyBit (sel rst : Bit) : Bit := sel ||| rst

/-- The incremented ButtonTimer is strictly greater than a threshold (R73): `t1 > t` with `t1 = (BTIMER + 1) mod 256`. -/
def exceeds (bTimer : Timer) (threshold : Nat) : Bit := bitOf (decide (threshold < (bTimer + 1#8).toNat))

/-- EXP: this tick's increment of ButtonTimer will pass the threshold (R73). -/
def expBit (c : Config) (mode : ModeCode) (bTimer : Timer) (sel rst : Bit) : Bit :=
  if mode = idleMode then sel &&& ~~~rst &&& exceeds bTimer c.tLong
  else if mode = selectMode then ~~~sel &&& ~~~rst &&& exceeds bTimer c.tCommit
  else 0#1

/-- The base colour: `THEME AND (IDX != 0)` (R156). -/
def indicatorBase (idx : Bank) (theme : Bit) : Bit := theme &&& bitOf (idx != 0#2)

/-- The blink bit: `BTIMER[1]` (R157). -/
def indicatorBlink (bTimer : Timer) : Bit := bTimer.extractLsb' 1 1

/-- `Indicator(idx, theme, btimer)`: the per-tick pin level (R155, R158). -/
def indicator (idx : Bank) (theme : Bit) (bTimer : Timer) : Bit :=
  indicatorBase idx theme ^^^ indicatorBlink bTimer

/-- Whether MODE is Idle or Select: `MODE[1] == 0` (R21, R100). -/
def validMode (mode : ModeCode) : Bool := mode.extractLsb' 1 1 == 0#1

end Sys2Proof.Machine
end

