-- ==== Sys2Proof/Machine/Procedures.lean ====
section
/-! DEFINITION. Machine/Procedures.lean: the sub-procedures the branches call, each written from its rule's pseudocode
(spec/41 to 45). None has an opcode row (spec/00_scope.md R11, spec/30_encoding.md R78). -/

namespace Sys2Proof.Machine

/-! ### Index and theme store (42) -/

/-- `SetIndex(i)` (R130). -/
def setIndex (i : Bank) (s : State) : State := (s.driveAddr i).sleep s.cfg.tSettleMs

/-- `CommitIndex(i)`: persist with write avoidance against LASTSAVED (R131). -/
def commitIndex (i : Bank) (s : State) : State :=
  if i ≠ s.lastSaved then { s.memWrite .idx (zext8 i) with lastSaved := i } else s

/-- `LoadStore()`: both slots through their masks (R132, R52). -/
def loadStore (s : State) : State :=
  let s := { s with idx := indexOfByte (s.memRead .idx) }
  let s := { s with lastSaved := s.idx }
  { s with theme := themeOfByte (s.memRead .theme) }

/-- `ThemeToggle()` (R133). -/
def themeToggle (s : State) : State :=
  let s := { s with theme := ~~~s.theme }
  s.memWrite .theme (zext8 s.theme)

/-! ### Indicator sequences (44) and the reset pulse (43) -/

/-- `repeat n times: ToggleLed(); Sleep(ms)`, the body of FeedbackBlink and of SelfTest (R159, R160). -/
def blink (ms : Nat) : Nat → State → State
  | 0, s => s
  | n + 1, s => blink ms n (s.toggleLed.sleep ms)

/-- `FeedbackBlink()` (R159). -/
def feedbackBlink (s : State) : State := blink s.cfg.tFbMs s.cfg.fbToggles s

/-- `SelfTest()`: two half-cycles a cycle (R160). -/
def selfTest (s : State) : State := blink s.cfg.tSelftestHalfMs (2 * s.cfg.selftestCycles) s

/-- `PulseReset()`: one timed assertion and release of the host's reset line (R145). -/
def pulseReset (s : State) : State :=
  let s := s.driveRst 1#1
  let s := s.toggleLed
  let s := s.sleep s.cfg.tPulseAMs
  let s := s.toggleLed
  let s := s.sleep s.cfg.tPulseBMs
  let s := s.driveRst 0#1
  s.sleep s.cfg.tPostMs

/-! ### Entering and leaving Select (41) -/

/-- `EnterSelect(ign)` (R101). -/
def enterSelect (ign : Bit) (s : State) : State :=
  feedbackBlink { s with mode := selectMode, bTimer := 0#8, ob := 0#1, ign := ign }

/-- `Commit()`: pulse unless suppressed, persist, return to Idle, in that order (R112). IGN and OB stay (D8). -/
def commit (s : State) : State :=
  let s := if s.ign = 0#1 then pulseReset s else s
  let s := commitIndex s.idx s
  let s := { s with bTimer := 0#8 }
  { s with mode := idleMode }

/-! ### The tick's own parts (41, R100) -/

/-- The tick up to its decode: the indicator update, skipped in an invalid mode (R100, D16). -/
def tickIndicator (s : State) : State :=
  if validMode s.mode then s.driveLed (indicator s.idx s.theme s.bTimer) else s

/-- The base sleep that closes every tick (R100). -/
def tickClose (s : State) : State := s.sleep s.cfg.tTickMs

/-! ### Boot (45) -/

/-- `BootPrefix()` up to its sample point, where Q has been formed (R163, R70). -/
def bootPrefix (s : State) : State :=
  let s := s.driveRst 0#1
  let s := s.driveLed 0#1
  let s := loadStore s
  setIndex s.idx s

/-- `BootSuffix()` (R164). -/
def bootSuffix (s : State) : State :=
  let s := pulseReset s
  let s := selfTest s
  let s := s.sleep s.cfg.tBootSettleMs
  { s with mode := idleMode, bTimer := 0#8, ob := 0#1, ign := 0#1, phase := .run }

end Sys2Proof.Machine
end

