-- ==== Sys2Proof/Machine/Boot.lean ====
section
/-! DEFINITION. Machine/Boot.lean: the boot branches (spec/45_boot.md R165 to R168). Q was formed from the levels of the
step's sample point, which stand in SEL_N and RST_N (spec/30_encoding.md R70); `rst` is sampled and not used (R165). -/

namespace Sys2Proof.Machine

/-- `BOOT_PLAIN`: power-on with select released (R165). -/
def execBootPlain (s : State) : Host.Outcome State Fault Refusal := .next (bootSuffix (bootPrefix s))

/-- `BOOT_THEME`: power-on with select held (R166). -/
def execBootTheme (s : State) : Host.Outcome State Fault Refusal :=
  let s := bootPrefix s
  let s := themeToggle s
  let s := s.sleep s.cfg.tPollMs
  .next { s with phase := .waitRelease }

/-- `WAIT_HOLD`: boot still blocked, select still held (R167). -/
def execWaitHold (s : State) : Host.Outcome State Fault Refusal := .next (s.sleep s.cfg.tPollMs)

/-- `WAIT_DONE`: select released, boot resumes (R168). -/
def execWaitDone (s : State) : Host.Outcome State Fault Refusal := .next (bootSuffix s)

end Sys2Proof.Machine
end

