-- ==== Sys2Proof/Machine/Idle.lean ====
section
/-! DEFINITION. Machine/Idle.lean: the Idle branches of the tick (spec/41_selection_fsm.md R102 to R105). A branch's
meaning is its rule's pseudocode; the indicator update before it and the base sleep after it are RUN_TICK's (R100). OB
is not used in Idle (R24). -/

namespace Sys2Proof.Machine

/-- `IDLE_REST`: `BTIMER <- 0` (R102). -/
def execIdleRest (_ob : Bit) (s : State) : Host.Outcome State Fault Refusal := .next { s with bTimer := 0#8 }

/-- `IDLE_HOLD`: `BTIMER <- BTIMER + 1`, 8 bits (R103). -/
def execIdleHold (_ob : Bit) (s : State) : Host.Outcome State Fault Refusal :=
  .next { s with bTimer := s.bTimer + 1#8 }

/-- `IDLE_LONGPRESS`: the increment that exceeds `T_LONG`, then `EnterSelect(0)` (R104). -/
def execIdleLongpress (_ob : Bit) (s : State) : Host.Outcome State Fault Refusal :=
  .next (enterSelect 0#1 { s with bTimer := s.bTimer + 1#8 })

/-- `IDLE_EXTRESET`: `EnterSelect(1)` (R105). -/
def execIdleExtreset (_ob : Bit) (s : State) : Host.Outcome State Fault Refusal := .next (enterSelect 1#1 s)

end Sys2Proof.Machine
end

