-- ==== Sys2Proof/Machine/InvalidMode.lean ====
section
/-! DEFINITION. Machine/InvalidMode.lean: the fault branch of the tick (spec/41_selection_fsm.md R115). -/

namespace Sys2Proof.Machine

/-- `TICK_FAULT`: record FAULT_MODE with the MODE code, flash the indicator, force the address outputs to
`FAULT_ADDR`, with no settle delay; every other register and STORE stay (R115, R170, R171). The word's low bits are not
used. -/
def execTickFault (_mode0 _ob _any _rst _exp : Bit) (s : State) : Host.Outcome State Fault Refusal :=
  let s := s.raiseFaultMode
  let s := s.toggleLed
  .next (s.driveAddr s.cfg.faultAddr)

end Sys2Proof.Machine
end

