-- ==== Sys2Proof/Syntax.lean ====
section
/-! DEFINITION. Syntax.lean: the instructions (one constructor per row of spec/opcode_table.json), the two decode
words, and the stimulus scripts of spec/30_encoding.md R79 and R80. An instruction is one branch of the step decode
(spec/00_scope.md R11). -/

namespace Sys2Proof

/-- The branches of the step decode (R71, R75). A branch's operands are the don't-care bits of its row, in the
table's order, so that a decoded word keeps every bit; no branch rule reads them (R71, R75, R115). -/
inductive Instr where
  /-- Q = 000: power-on with select released (R165) -/
  | bootPlain
  /-- Q = 001: power-on with select held (R166) -/
  | bootTheme
  /-- Q = 010: select released, boot resumes (R168) -/
  | waitDone
  /-- Q = 011: boot still blocked (R167) -/
  | waitHold
  /-- Q = 10s: one pass of the control loop (R100) -/
  | runTick (sel : Bit)
  /-- W = 00o000: Idle, both lines released (R102) -/
  | idleRest (ob : Bit)
  /-- W = 00o100: Idle, select pressed, below the threshold (R103) -/
  | idleHold (ob : Bit)
  /-- W = 00o101: Idle, long press completed (R104) -/
  | idleLongpress (ob : Bit)
  /-- W = 00o110: Idle, reset line active (R105) -/
  | idleExtreset (ob : Bit)
  /-- W = 010000: Select, latch not armed, released (R106) -/
  | selArm
  /-- W = 010001: Select, latch not armed, released, quiet time exceeded (R113) -/
  | selArmCommit
  /-- W = 0101r0: Select, latch not armed, a line pressed (R107) -/
  | selHeld (rst : Bit)
  /-- W = 011000: Select, latch armed, released, below the threshold (R108) -/
  | selQuiet
  /-- W = 011001: Select, latch armed, quiet time exceeded (R111) -/
  | selCommit
  /-- W = 0111r0: Select, the armed advance edge (R110) -/
  | selAdvance (rst : Bit)
  /-- W = 1mobrx: a tick with MODE outside Idle and Select (R115) -/
  | tickFault (mode0 ob any rst exp : Bit)
deriving DecidableEq, Repr

/-- A decode word: the 3-bit phase word Q (R70) or the 6-bit tick word W (R72). Both have a fixed width (R78). -/
inductive StepWord where
  /-- the phase word Q = PHASE : SEL -/
  | q (bits : BitVec 3)
  /-- the tick word W = MODE : OB : ANY : RST : EXP -/
  | w (bits : BitVec 6)
deriving DecidableEq, Repr

/-- The one reason a word is refused (R76): R70 and R72 to R74 never produce it. -/
inductive DecodeError where
  /-- the word is unformable (R76, U1, U2) -/
  | unformable
deriving DecidableEq, Repr

/-- A line of a stimulus script: one step with its input sample (R79). `sel` and `rst` are logical readings, 1 for
pressed or active. -/
inductive ScriptLine where
  /-- the POWERON step; `idx` and `theme` are the initial STORE bytes -/
  | powerOn (idx theme : Byte) (sel : Bit)
  /-- a WAIT_RELEASE step -/
  | poll (sel : Bit)
  /-- a RUN step -/
  | tick (sel rst : Bit)
deriving DecidableEq, Repr

/-- A line as written in a script: a step or one of the pseudo-steps of R80. -/
inductive PseudoLine where
  /-- one step of R79 -/
  | step (l : ScriptLine)
  /-- `HOLD n` -/
  | hold (n : Nat)
  /-- `QUIET n` -/
  | quiet (n : Nat)
  /-- `EXT n` -/
  | ext (n : Nat)
  /-- `TAP` -/
  | tap
  /-- `REPEAT n <line>` -/
  | replicate (n : Nat) (l : PseudoLine)
deriving DecidableEq, Repr

end Sys2Proof
end

