-- ==== Sys2Proof/WellFormed.lean ====
section
/-! DEFINITION. WellFormed.lean: which configurations R6 admits, and which instructions the rules can form. -/

namespace Sys2Proof

/-- R6's ranges, which a configuration outside them is refused for (93_implementation_defined.md U4): both thresholds
at most 254, `FB_TOGGLES` even, the tick and poll delays above 0, the two slots at distinct addresses. -/
def Config.wf (c : Config) : Bool :=
  decide (c.tLong ≤ 254) && decide (c.tCommit ≤ 254) && decide (c.fbToggles % 2 = 0) &&
    decide (0 < c.tTickMs) && decide (0 < c.tPollMs) && decide (c.slotIdx ≠ c.slotTheme)

/-- Whether the rules form the instruction's word. In an invalid mode EXP is 0 (R73) and ANY is 1 where RST is
(R74), so a TICK_FAULT word with EXP = 1, or with RST = 1 and ANY = 0, is decoded (R75) but never formed. Every
word of the other rows is formed by some state. -/
def Instr.wellFormed : Instr → Bool
  | .tickFault _ _ any rst exp => exp == 0#1 && (rst == 0#1 || any == 1#1)
  | .bootPlain => true
  | .bootTheme => true
  | .waitDone => true
  | .waitHold => true
  | .runTick _ => true
  | .idleRest _ => true
  | .idleHold _ => true
  | .idleLongpress _ => true
  | .idleExtreset _ => true
  | .selArm => true
  | .selArmCommit => true
  | .selHeld _ => true
  | .selQuiet => true
  | .selCommit => true
  | .selAdvance _ => true

end Sys2Proof
end

