-- ==== Sys2Proof/Decode.lean ====
section
/-! DEFINITION. Decode.lean: the two decode tables of spec/30_encoding.md (R71, R75), the decoder, which refuses an
unformable word by name (R76), the encoder written from the same tables, the printed form of a decoded step (R79), and
the pipeline's table word. -/

namespace Sys2Proof

/-- One row of a decode table: a word matches when `(word AND mask) == pattern` (R75). -/
structure Row (n : Nat) where
  /-- the row's mnemonic in spec/opcode_table.json -/
  mnemonic : String
  /-- the row's match value -/
  pattern : BitVec n
  /-- the row's mask: 1 where the pattern has a fixed bit -/
  mask : BitVec n
  /-- the branch, with the word's don't-care bits -/
  build : BitVec n → Instr

/-- Bit `i` of a word. -/
def wordBit {n : Nat} (i : Nat) (x : BitVec n) : Bit := x.extractLsb' i 1

/-- Whether a word matches a row (R75). -/
def Row.matches {n : Nat} (r : Row n) (x : BitVec n) : Bool := x &&& r.mask == r.pattern

/-- The phase word's table (R71). -/
def qTable : List (Row 3) := [
  ⟨"BOOT_PLAIN", 0b000#3, 0b111#3, fun _ => .bootPlain⟩,
  ⟨"BOOT_THEME", 0b001#3, 0b111#3, fun _ => .bootTheme⟩,
  ⟨"WAIT_DONE", 0b010#3, 0b111#3, fun _ => .waitDone⟩,
  ⟨"WAIT_HOLD", 0b011#3, 0b111#3, fun _ => .waitHold⟩,
  ⟨"RUN_TICK", 0b100#3, 0b110#3, fun x => .runTick (wordBit 0 x)⟩]

/-- The tick word's table (R75). -/
def wTable : List (Row 6) := [
  ⟨"IDLE_REST", 0x00#6, 0x37#6, fun x => .idleRest (wordBit 3 x)⟩,
  ⟨"IDLE_HOLD", 0x04#6, 0x37#6, fun x => .idleHold (wordBit 3 x)⟩,
  ⟨"IDLE_LONGPRESS", 0x05#6, 0x37#6, fun x => .idleLongpress (wordBit 3 x)⟩,
  ⟨"IDLE_EXTRESET", 0x06#6, 0x37#6, fun x => .idleExtreset (wordBit 3 x)⟩,
  ⟨"SEL_ARM", 0x10#6, 0x3F#6, fun _ => .selArm⟩,
  ⟨"SEL_ARM_COMMIT", 0x11#6, 0x3F#6, fun _ => .selArmCommit⟩,
  ⟨"SEL_HELD", 0x14#6, 0x3D#6, fun x => .selHeld (wordBit 1 x)⟩,
  ⟨"SEL_QUIET", 0x18#6, 0x3F#6, fun _ => .selQuiet⟩,
  ⟨"SEL_COMMIT", 0x19#6, 0x3F#6, fun _ => .selCommit⟩,
  ⟨"SEL_ADVANCE", 0x1C#6, 0x3D#6, fun x => .selAdvance (wordBit 1 x)⟩,
  ⟨"TICK_FAULT", 0x20#6, 0x20#6,
    fun x => .tickFault (wordBit 4 x) (wordBit 3 x) (wordBit 2 x) (wordBit 1 x) (wordBit 0 x)⟩]

/-- The branch of the first row a word matches; a word of no row is refused as unformable (R76). No two rows of a
table match one word, so "first" decides nothing (`Laws/Decode.lean`). -/
def decodeIn {n : Nat} (table : List (Row n)) (x : BitVec n) : Except DecodeError Instr :=
  match table.find? (fun r => r.matches x) with
  | some r => .ok (r.build x)
  | none => .error .unformable

/-- The decoder, total on every word of both formats (R71, R75, R76). -/
def decode : StepWord → Except DecodeError Instr
  | .q x => decodeIn qTable x
  | .w x => decodeIn wTable x

/-- The word of an instruction, written from the patterns of R71 and R75 (`spec/opcode_table.json`, "encoding"). -/
def encode : Instr → StepWord
  | .bootPlain => .q 0b000#3
  | .bootTheme => .q 0b001#3
  | .waitDone => .q 0b010#3
  | .waitHold => .q 0b011#3
  | .runTick sel => .q (0b10#2 ++ sel)
  | .idleRest ob => .w (0b00#2 ++ ob ++ 0b000#3)
  | .idleHold ob => .w (0b00#2 ++ ob ++ 0b100#3)
  | .idleLongpress ob => .w (0b00#2 ++ ob ++ 0b101#3)
  | .idleExtreset ob => .w (0b00#2 ++ ob ++ 0b110#3)
  | .selArm => .w 0b010000#6
  | .selArmCommit => .w 0b010001#6
  | .selHeld rst => .w (0b0101#4 ++ rst ++ 0b0#1)
  | .selQuiet => .w 0b011000#6
  | .selCommit => .w 0b011001#6
  | .selAdvance rst => .w (0b0111#4 ++ rst ++ 0b0#1)
  | .tickFault mode0 ob any rst exp => .w (0b1#1 ++ mode0 ++ ob ++ any ++ rst ++ exp)

/-- The mnemonic of an instruction, as R71 and R75 spell it. -/
def Instr.mnemonic : Instr → String
  | .bootPlain => "BOOT_PLAIN"
  | .bootTheme => "BOOT_THEME"
  | .waitDone => "WAIT_DONE"
  | .waitHold => "WAIT_HOLD"
  | .runTick _ => "RUN_TICK"
  | .idleRest _ => "IDLE_REST"
  | .idleHold _ => "IDLE_HOLD"
  | .idleLongpress _ => "IDLE_LONGPRESS"
  | .idleExtreset _ => "IDLE_EXTRESET"
  | .selArm => "SEL_ARM"
  | .selArmCommit => "SEL_ARM_COMMIT"
  | .selHeld _ => "SEL_HELD"
  | .selQuiet => "SEL_QUIET"
  | .selCommit => "SEL_COMMIT"
  | .selAdvance _ => "SEL_ADVANCE"
  | .tickFault _ _ _ _ _ => "TICK_FAULT"

/-- The hexadecimal digit of a number below 16, capital as R79 writes it. -/
def hexDigit (n : Nat) : Char := "0123456789ABCDEF".toList.getD n '?'

/-- A word below 256 in hex, as R79's example writes it: `0x1C`. -/
def hexText (n : Nat) : String := "0x" ++ String.ofList [hexDigit (n / 16 % 16), hexDigit (n % 16)]

/-- The printed form of a decoded step: its mnemonic followed by the W or Q word in hex (R79). -/
def Instr.printed (i : Instr) : String :=
  match encode i with
  | .q x => i.mnemonic ++ " Q=" ++ hexText x.toNat
  | .w x => i.mnemonic ++ " W=" ++ hexText x.toNat

/-- The decode word behind the pipeline's `nbits` bits `w`. With 3 bits it is a Q word, with 4 to 6 a W word. A whole
byte does not say its format: the values 0 to 4, which the five Q rows give with their don't-care bit 0, are read as
Q, every other value below 64 as W (assumption log entry 12). A value with bits beyond its format is no word. -/
def tableWord (nbits w : Nat) : Option StepWord :=
  if nbits ≤ 3 then (if w < 8 then some (.q (BitVec.ofNat 3 w)) else none)
  else if nbits ≤ 6 then (if w < 64 then some (.w (BitVec.ofNat 6 w)) else none)
  else if w ≤ 4 then some (.q (BitVec.ofNat 3 w))
  else if w < 64 then some (.w (BitVec.ofNat 6 w))
  else none

/-- The instruction the decoder reads from a table word of the pipeline. -/
def decodeTableWord (nbits w : Nat) : Option Instr :=
  match tableWord nbits w with
  | some x => (decode x).toOption
  | none => none

end Sys2Proof
end

