-- ==== Sys2Proof/Machine/Operands.lean ====
section
/-! DEFINITION. Machine/Operands.lean: the sample (spec/40_input_sampler.md R90) and the two decode words
(spec/30_encoding.md R70, R72) formed from the state and the sample, the branch they select, and their inverse: placing
a word so that the next step forms it. -/

namespace Sys2Proof.Machine

/-- PHASE's 2-bit code (R20). -/
def Phase.code : Phase → BitVec 2
  | .powerOn => 0b00#2
  | .waitRelease => 0b01#2
  | .run => 0b10#2

/-- The phase of a code; code 11 is no phase (R20, R71). -/
def phaseOfCode (c : BitVec 2) : Option Phase :=
  if c = 0b00#2 then some .powerOn
  else if c = 0b01#2 then some .waitRelease
  else if c = 0b10#2 then some .run
  else none

/-- `Sample()`: `sel = NOT SEL_N`, `rst = NOT RST_N`; it writes nothing and emits nothing (R90). Both lines are read at
one instant, with no filter and no history (R92, R93). -/
def State.sample (s : State) : Bit × Bit := (~~~s.selN, ~~~s.rstN)

/-- The phase word Q = PHASE : SEL (R70). -/
def State.qWord (s : State) : BitVec 3 := s.phase.code ++ s.sample.1

/-- The tick word W = MODE : OB : ANY : RST : EXP (R72). -/
def State.wWord (s : State) : BitVec 6 :=
  s.mode ++ s.ob ++ anyBit s.sample.1 s.sample.2 ++ s.sample.2
    ++ expBit s.cfg s.mode s.bTimer s.sample.1 s.sample.2

/-- The boot branch or tick that Q selects at the step's sample point (R71). -/
def State.phaseBranch (s : State) : Except DecodeError Instr := decode (.q s.qWord)

/-- The tick branch that W selects (R75). -/
def State.tickBranch (s : State) : Except DecodeError Instr := decode (.w s.wWord)

/-- The branch that the next step at `s` runs: Q's boot branch, or, in RUN, the tick branch that W selects. The sample
is the one the environment is about to give; the indicator update before W is formed touches no field of W (R72,
R100). -/
def State.nextBranch (s : State) : Except DecodeError Instr :=
  match s.drawPins.phaseBranch with
  | .ok (.runTick _) => s.drawPins.tickBranch
  | r => r

/-- ButtonTimer set so that EXP comes out as `wanted` where the mode and the sample allow it: kept where it does
already, else the threshold itself (the increment passes it) or 255 (the increment wraps to 0). Used only to place a
word (assumption log entry 13). -/
def timerFor (c : Config) (mode : ModeCode) (bTimer : Timer) (sel rst wanted : Bit) : Timer :=
  if expBit c mode bTimer sel rst = wanted then bTimer
  else if wanted = 0#1 then 255#8
  else if mode = idleMode then BitVec.ofNat 8 c.tLong
  else BitVec.ofNat 8 c.tCommit

/-- The state whose next step forms the word: PHASE and the sample's `sel` from a Q word; from a W word PHASE = RUN,
MODE, OB, the sample (`rst = RST`, `sel = ANY AND NOT RST`, R72) and ButtonTimer for EXP. The reset line's own drive is
released where the word needs it read released. The sample goes in front of the stimulus. A word that is none, or Q =
11?, changes nothing (assumption log entry 13). -/
def State.placeWord (s : State) : Option StepWord → State
  | none => s
  | some (.q x) =>
    match phaseOfCode (x.extractLsb' 1 2) with
    | none => s
    | some p => { s with phase := p, stimulus := ⟨~~~x.extractLsb' 0 1, 1#1⟩ :: s.stimulus }
  | some (.w x) =>
    let mode : ModeCode := x.extractLsb' 4 2
    let rst : Bit := x.extractLsb' 1 1
    let sel : Bit := x.extractLsb' 2 1 &&& ~~~rst
    { s with
      phase := .run
      mode := mode
      ob := x.extractLsb' 3 1
      bTimer := timerFor s.cfg mode s.bTimer sel rst (x.extractLsb' 0 1)
      rstOe := if rst = 0#1 then 0#1 else s.rstOe
      stimulus := ⟨~~~sel, ~~~rst⟩ :: s.stimulus }

end Sys2Proof.Machine
end

