-- ==== Sys2Proof/Machine/Select.lean ====
section
/-! DEFINITION. Machine/Select.lean: the Select branches of the tick (spec/41_selection_fsm.md R106 to R113). -/

namespace Sys2Proof.Machine

/-- `SEL_ARM`: `OB <- 1`, `BTIMER <- BTIMER + 1` (R106). -/
def execSelArm (s : State) : Host.Outcome State Fault Refusal :=
  .next { s with ob := 1#1, bTimer := s.bTimer + 1#8 }

/-- `SEL_HELD`: `BTIMER <- 0` (R107). -/
def execSelHeld (_rst : Bit) (s : State) : Host.Outcome State Fault Refusal := .next { s with bTimer := 0#8 }

/-- `SEL_QUIET`: `BTIMER <- BTIMER + 1` (R108). -/
def execSelQuiet (s : State) : Host.Outcome State Fault Refusal := .next { s with bTimer := s.bTimer + 1#8 }

/-- `SEL_ADVANCE`: the armed advance edge, through either line (R110). -/
def execSelAdvance (_rst : Bit) (s : State) : Host.Outcome State Fault Refusal :=
  let s := { s with ob := 0#1, ign := 0#1, idx := s.idx + 1#2 }
  .next { setIndex s.idx s with bTimer := 0#8 }

/-- `SEL_COMMIT`: the increment that exceeds `T_COMMIT`, then `Commit()` (R111). -/
def execSelCommit (s : State) : Host.Outcome State Fault Refusal :=
  .next (commit { s with bTimer := s.bTimer + 1#8 })

/-- `SEL_ARM_COMMIT`: the arm and the timeout in one tick (R113). -/
def execSelArmCommit (s : State) : Host.Outcome State Fault Refusal :=
  .next (commit { s with ob := 1#1, bTimer := s.bTimer + 1#8 })

end Sys2Proof.Machine
end

