-- ==== Sys2Proof/Machine/Tick.lean ====
section
/-! DEFINITION. Machine/Tick.lean: one pass of the control loop (spec/41_selection_fsm.md R100). -/

namespace Sys2Proof.Machine

/-- Dispatch of W's branch inside the tick (R75, R100). A Q-format instruction is no tick branch and the W decoder
never gives one (`Laws/Decode.lean`). -/
def runBranch (i : Instr) (s : State) : Host.Outcome State Fault Refusal :=
  match i with
  | .idleRest ob => execIdleRest ob s
  | .idleHold ob => execIdleHold ob s
  | .idleLongpress ob => execIdleLongpress ob s
  | .idleExtreset ob => execIdleExtreset ob s
  | .selArm => execSelArm s
  | .selArmCommit => execSelArmCommit s
  | .selHeld rst => execSelHeld rst s
  | .selQuiet => execSelQuiet s
  | .selCommit => execSelCommit s
  | .selAdvance rst => execSelAdvance rst s
  | .tickFault mode0 ob any rst exp => execTickFault mode0 ob any rst exp s
  | .bootPlain => .refused .unformable
  | .bootTheme => .refused .unformable
  | .waitDone => .refused .unformable
  | .waitHold => .refused .unformable
  | .runTick _ => .refused .unformable

/-- `RUN_TICK`: sample, indicator update, W, exactly one branch, base sleep, in that order (R100). The sample is the
step's own; Q's SEL bit is not used (R71). -/
def execRunTick (_sel : Bit) (s : State) : Host.Outcome State Fault Refusal :=
  let s := tickIndicator s
  match s.tickBranch with
  | .ok i => thenDo (runBranch i s) tickClose
  | .error .unformable => .refused .unformable

end Sys2Proof.Machine
end

