-- ==== Sys2Proof/Machine/Dispatch.lean ====
section
/-! DEFINITION. Machine/Dispatch.lean: every instruction to its meaning. -/

namespace Sys2Proof.Machine

def exec (i : Instr) (s : State) : Host.Outcome State Fault Refusal :=
  match i with
  | .bootPlain => Sys2Proof.Machine.execBootPlain s
  | .bootTheme => Sys2Proof.Machine.execBootTheme s
  | .waitDone => Sys2Proof.Machine.execWaitDone s
  | .waitHold => Sys2Proof.Machine.execWaitHold s
  | .runTick sel => Sys2Proof.Machine.execRunTick sel s
  | .idleRest ob => Sys2Proof.Machine.execIdleRest ob s
  | .idleHold ob => Sys2Proof.Machine.execIdleHold ob s
  | .idleLongpress ob => Sys2Proof.Machine.execIdleLongpress ob s
  | .idleExtreset ob => Sys2Proof.Machine.execIdleExtreset ob s
  | .selArm => Sys2Proof.Machine.execSelArm s
  | .selArmCommit => Sys2Proof.Machine.execSelArmCommit s
  | .selHeld rst => Sys2Proof.Machine.execSelHeld rst s
  | .selQuiet => Sys2Proof.Machine.execSelQuiet s
  | .selCommit => Sys2Proof.Machine.execSelCommit s
  | .selAdvance rst => Sys2Proof.Machine.execSelAdvance rst s
  | .tickFault mode0 ob any rst exp => Sys2Proof.Machine.execTickFault mode0 ob any rst exp s

end Sys2Proof.Machine
end

