-- ==== Sys2Proof/Machine/Step.lean ====
section
/-! DEFINITION. Machine/Step.lean: one step of the block, a boot step or a tick (spec/00_scope.md R7). -/

namespace Sys2Proof.Machine

/-- One step: the environment settles the sample point's levels (R14), Q is formed and decoded (R70, R71), and the
branch runs whole (R40). In RUN that branch is the tick, which forms and decodes W itself (R100). A configuration
outside R6's ranges is refused (U4). -/
def step (s : State) : Host.Outcome State Fault Refusal :=
  if s.cfg.wf then
    match s.drawPins.phaseBranch with
    | .ok i => exec i s.drawPins
    | .error .unformable => .refused .unformable
  else .refused .badConfig

/-- `s` with the pipeline's table word placed so that the next step forms and runs it (`State.placeWord`; assumption
log entry 13). -/
def State.withFetchWord (s : State) (nbits w : Nat) : State := s.placeWord (tableWord nbits w)

end Sys2Proof.Machine
end

