-- ==== Sys2Proof/Machine/Script.lean ====
section
/-! DEFINITION. Machine/Script.lean: stimulus scripts (spec/30_encoding.md R79, R80): their text, the expansion of the
pseudo-steps, and running them. Assumption log entry 19 holds what R79 leaves open. -/

namespace Sys2Proof.Machine

/-! ### Running -/

/-- The expansion of a written line into steps (R80). -/
def expand : PseudoLine → List ScriptLine
  | .step l => [l]
  | .hold n => List.replicate n (.tick 1#1 0#1)
  | .quiet n => List.replicate n (.tick 0#1 0#1)
  | .ext n => List.replicate n (.tick 0#1 1#1)
  | .tap => [.tick 1#1 0#1, .tick 0#1 0#1]
  | .replicate n l => (List.replicate n (expand l)).flatten

/-- The phase at which a line may stand (R79). -/
def linePhase : ScriptLine → Phase
  | .powerOn _ _ _ => .powerOn
  | .poll _ => .waitRelease
  | .tick _ _ => .run

/-- The state with the line's sample next: `SEL_N = NOT sel`, `RST_N = NOT rst` (R79). A boot line gives no `rst`,
which the boot does not use (R90): there it is a free level. -/
def State.withSample (sel : Bit) (rst : Option Bit) (s : State) : State :=
  match rst with
  | some r => { s with stimulus := ⟨~~~sel, ~~~r⟩ :: s.stimulus }
  | none => { s with stimulus := ⟨~~~sel, (Config.freePins s.draws).rstN⟩ :: s.stimulus, draws := s.draws + 1 }

/-- The state with the line's STORE bytes and its sample placed (R79). -/
def placeLine (l : ScriptLine) (s : State) : State :=
  match l with
  | .powerOn idx theme sel =>
    { s with store := Memory.write (Memory.write s.store s.cfg.slotIdx idx) s.cfg.slotTheme theme }.withSample sel none
  | .poll sel => s.withSample sel none
  | .tick sel rst => s.withSample sel (some rst)

/-- One line: refused where it does not match PHASE (R79, U3), otherwise one step with the line's sample. -/
def runLine (l : ScriptLine) (s : State) : Host.Outcome State Fault Refusal :=
  if s.phase = linePhase l then step (placeLine l s) else .refused .scriptMismatch

/-- The lines of a script in order, up to the first refusal. -/
def runLines : List ScriptLine → State → Host.Outcome State Fault Refusal
  | [], s => .next s
  | l :: rest, s =>
    match runLine l s with
    | .next t => runLines rest t
    | .fault r => .fault r
    | .refused r => .refused r

/-- A written script: its lines expanded and run (R79, R80). -/
def runScript (lines : List PseudoLine) (s : State) : Host.Outcome State Fault Refusal :=
  runLines (lines.flatMap expand) s

/-- The printed form of the step that `s` is about to take (R79). -/
def State.printedStep (s : State) : Option String := s.nextBranch.toOption.map Instr.printed

/-! ### The text of a line -/

/-- The words of a line: the text up to a `;`, cut at spaces (R79). -/
def lineWords (text : List Char) : List (List Char) :=
  ((text.takeWhile (· != ';')).splitOn ' ').filter (fun w => !w.isEmpty)

/-- A digit in a base up to 16. -/
def digitOf (base : Nat) (c : Char) : Option Nat :=
  let v :=
    if '0' ≤ c ∧ c ≤ '9' then some (c.toNat - '0'.toNat)
    else if 'a' ≤ c ∧ c ≤ 'f' then some (c.toNat - 'a'.toNat + 10)
    else if 'A' ≤ c ∧ c ≤ 'F' then some (c.toNat - 'A'.toNat + 10)
    else none
  v.filter (· < base)

/-- A number in a base, its digits read from the left onto `acc`. -/
def digitsOf (base acc : Nat) : List Char → Option Nat
  | [] => some acc
  | c :: cs => (digitOf base c).bind fun d => digitsOf base (acc * base + d) cs

/-- A number: `0x` and hexadecimal digits, or decimal digits. -/
def numberOf : List Char → Option Nat
  | '0' :: 'x' :: c :: cs => digitsOf 16 0 (c :: cs)
  | c :: cs => digitsOf 10 0 (c :: cs)
  | [] => none

/-- The value of a word `key=<number>` below `2 ^ n`. -/
def fieldOf (n : Nat) (key : String) (word : List Char) : Option (BitVec n) :=
  let lead := key.toList ++ ['=']
  if lead.isPrefixOf word then
    ((numberOf (word.drop lead.length)).filter (· < 2 ^ n)).map (BitVec.ofNat n)
  else none

/-- A written line from its words (R79, R80). -/
def parseWords : List (List Char) → Option PseudoLine
  | [] => none
  | w :: args =>
    if w = "POWERON".toList then
      match args with
      | [i, t, x] => do
        pure (.step (.powerOn (← fieldOf 8 "idx" i) (← fieldOf 8 "theme" t) (← fieldOf 1 "sel" x)))
      | _ => none
    else if w = "POLL".toList then
      match args with
      | [x] => do pure (.step (.poll (← fieldOf 1 "sel" x)))
      | _ => none
    else if w = "TICK".toList then
      match args with
      | [x, r] => do pure (.step (.tick (← fieldOf 1 "sel" x) (← fieldOf 1 "rst" r)))
      | _ => none
    else if w = "TAP".toList then
      if args = [] then some .tap else none
    else if w = "HOLD".toList then
      match args with
      | [n] => (numberOf n).map .hold
      | _ => none
    else if w = "QUIET".toList then
      match args with
      | [n] => (numberOf n).map .quiet
      | _ => none
    else if w = "EXT".toList then
      match args with
      | [n] => (numberOf n).map .ext
      | _ => none
    else if w = "REPEAT".toList then
      match args with
      | n :: rest => do pure (.replicate (← numberOf n) (← parseWords rest))
      | [] => none
    else none

/-- A text line: nothing for a line that is blank or a comment; refused (`none`) where it is not of R79's or R80's
form. -/
def parseLine (text : String) : Option (List PseudoLine) :=
  match lineWords text.toList with
  | [] => some []
  | ws => (parseWords ws).map fun l => [l]

end Sys2Proof.Machine
end

