-- ==== Sys2Proof/Safety.lean ====
section
/-! DEFINITION. Safety.lean: the terms claims are made in: what a list of events shows, the event lists of the
procedures in the notation of spec/95_test_vectors.md, the Select tick as one algorithm (R109), the invariants of the
reachable states (R39), runs, and what the spec calls unobservable (R37, R190). Nothing here is used by the machine. -/

namespace Sys2Proof.Machine

/-! ### Reading a list of events -/

/-- The time an event takes: only `EvSleep` takes any (R7). -/
def Event.ms : Event → Nat
  | .evSleep ms => ms
  | .evAddr _ => 0
  | .evLed _ => 0
  | .evRst _ => 0
  | .evStoreWrite _ _ => 0

/-- The elapsed time of a list of events: the sum of its sleeps (R7, R198). -/
def duration : List Event → Nat
  | [] => 0
  | e :: rest => e.ms + duration rest

/-- The reset line's drives, in order. -/
def rstDrives : List Event → List Bit
  | [] => []
  | .evRst d :: rest => d :: rstDrives rest
  | .evSleep _ :: rest => rstDrives rest
  | .evAddr _ :: rest => rstDrives rest
  | .evLed _ :: rest => rstDrives rest
  | .evStoreWrite _ _ :: rest => rstDrives rest

/-- The number of reset pulses: `EvRst(1)` events (R147). -/
def pulses (t : List Event) : Nat := (rstDrives t).count 1#1

/-- The store writes, in order: address and byte (R56, R199). -/
def storeWrites : List Event → List Host.Cell
  | [] => []
  | .evStoreWrite a v :: rest => (a, v) :: storeWrites rest
  | .evSleep _ :: rest => storeWrites rest
  | .evAddr _ :: rest => storeWrites rest
  | .evLed _ :: rest => storeWrites rest
  | .evRst _ :: rest => storeWrites rest

/-! ### The event lists of the procedures (95, notation) -/

/-- `n` toggles from level `l`, each followed by a sleep (R159, R160). -/
def blinkEvents (ms : Nat) : Nat → Bit → List Event
  | 0, _ => []
  | n + 1, l => .evLed (~~~l) :: .evSleep ms :: blinkEvents ms n (~~~l)

/-- `FB(l)`: the double blink of a Select entry (R159). -/
def feedbackEvents (c : Config) (l : Bit) : List Event := blinkEvents c.tFbMs c.fbToggles l

/-- `SELFTEST` from level `l` (R160). -/
def selfTestEvents (c : Config) (l : Bit) : List Event := blinkEvents c.tSelftestHalfMs (2 * c.selftestCycles) l

/-- `PULSE(l)`: the reset pulse with LED level `l` on entry (R145). -/
def pulseEvents (c : Config) (l : Bit) : List Event :=
  [.evRst 1#1, .evLed (~~~l), .evSleep c.tPulseAMs, .evLed l, .evSleep c.tPulseBMs, .evRst 0#1, .evSleep c.tPostMs]

/-- The boot prefix with the index read from the store (R163). -/
def prefixEvents (c : Config) (i : Bank) : List Event :=
  [.evRst 0#1, .evLed 0#1, .evAddr i, .evSleep c.tSettleMs]

/-- The boot suffix with LED level `l` on entry (R164). -/
def suffixEvents (c : Config) (l : Bit) : List Event :=
  pulseEvents c l ++ selfTestEvents c l ++ [.evSleep c.tBootSettleMs]

/-- The events of a commit (R112, R131): the pulse unless IGN, then the write if the index changed. -/
def commitEvents (s : State) : List Event :=
  (if s.ign = 0#1 then pulseEvents s.cfg s.ledOut else [])
    ++ (if s.idx ≠ s.lastSaved then [.evStoreWrite s.cfg.slotIdx (zext8 s.idx)] else [])

/-- The level the tick that starts at `s` shows: `Indicator(IDX, THEME, BTIMER)` (R155, R161). -/
def State.indicatorNow (s : State) : Bit := indicator s.idx s.theme s.bTimer

/-- The index the boot reads (R132). -/
def State.bootIndex (s : State) : Bank := indexOfByte (s.memRead .idx)

/-- The theme the boot reads (R132). -/
def State.bootTheme (s : State) : Bit := themeOfByte (s.memRead .theme)

/-! ### The Select tick as one algorithm -/

/-- R109's algorithm, word for word; `sel` and `rst` are the tick's sample. -/
def selectAlgorithm (sel rst : Bit) (s : State) : State :=
  let any := sel ||| rst
  let armed :=
    if s.ob = 0#1 ∧ any = 0#1 then { s with ob := 1#1 }
    else if s.ob = 1#1 ∧ any = 1#1 then
      setIndex (s.idx + 1#2) { s with ob := 0#1, ign := 0#1, idx := s.idx + 1#2 }
    else s
  if any = 0#1 then
    let counted := { armed with bTimer := armed.bTimer + 1#8 }
    if counted.cfg.tCommit < counted.bTimer.toNat then commit counted else counted
  else { armed with bTimer := 0#8 }

/-! ### Invariants -/

/-- R39: what holds at the start of every tick of a state reached from power-on. -/
structure TickInv (s : State) : Prop where
  /-- (a) MODE is Idle or Select -/
  modeValid : s.mode = idleMode ∨ s.mode = selectMode
  /-- (b) an unarmed Select has counted nothing -/
  unarmedZero : s.mode = selectMode → s.ob = 0#1 → s.bTimer = 0#8
  /-- (c) an armed Select is within the commit threshold -/
  armedBound : s.mode = selectMode → s.ob = 1#1 → s.bTimer.toNat ≤ s.cfg.tCommit
  /-- (d) Idle is within the long-press threshold -/
  idleBound : s.mode = idleMode → s.bTimer.toNat ≤ s.cfg.tLong
  /-- (e) the core does not drive the reset line -/
  released : s.rstOe = 0#1
  /-- (f) the address outputs show the index -/
  addrShowsIndex : s.addrOut = s.idx

/-- The registers and the store agree: the stored index reads as LASTSAVED and the stored theme as THEME (R15, R29,
R134: "on-disk BankIndex equals last value actually confirmed by the user"). -/
structure StoreInv (s : State) : Prop where
  /-- the kernal-index slot reads as the last confirmed index -/
  indexConfirmed : indexOfByte (s.memRead .idx) = s.lastSaved
  /-- the theme slot reads as the theme in use -/
  themePersisted : themeOfByte (s.memRead .theme) = s.theme

/-- What the boot has established while it waits for the release (R163, R166). -/
structure WaitInv (s : State) : Prop where
  /-- the reset line is released -/
  released : s.rstOe = 0#1
  /-- the indicator stands at the bank-0 base colour -/
  ledBase : s.ledOut = 0#1
  /-- the address outputs show the index -/
  addrShowsIndex : s.addrOut = s.idx
  /-- the index is the persisted one -/
  indexLoaded : s.lastSaved = s.idx

/-- The invariant of every state from power-on (R39, R174): legal parameters, a canonical store, an empty fault log,
and, by phase, what the boot and the ticks keep. At POWERON the registers are unspecified and nothing is said. -/
structure Inv (s : State) : Prop where
  /-- the parameters are in R6's ranges -/
  configLegal : s.cfg.wf = true
  /-- the store is in canonical form -/
  storeCanonical : Memory.wf s.store
  /-- no fault was recorded -/
  noFault : s.faultLog = []
  /-- while the boot waits -/
  waiting : s.phase = .waitRelease → WaitInv s ∧ StoreInv s
  /-- in the tick loop -/
  ticking : s.phase = .run → TickInv s ∧ StoreInv s

/-! ### Runs -/

/-- A state at power-on: PHASE is POWERON, nothing has been emitted or recorded, the parameters and the store are
inputs of the run, and every other register holds anything (R13, R38, I4). -/
def AtPowerOn (s : State) : Prop :=
  s.phase = .powerOn ∧ s.trace = [] ∧ s.faultLog = [] ∧ s.cfg.wf = true ∧ Memory.wf s.store

/-- The states of the runs from power-on, under every stimulus, power cycles included (R13, R184). -/
inductive Reachable : State → Prop where
  /-- a run starts at power-on -/
  | start (s : State) : AtPowerOn s → Reachable s
  /-- one step -/
  | next (s t : State) : Reachable s → step s = .next t → Reachable t
  /-- power off and on -/
  | cycle (s : State) : Reachable s → Reachable s.powerCycle

/-- `k` steps, up to the first that gives no next state: the host's `Sys2Proof.core.run`, on this machine's own types
(`runSteps_eq_core_run`). -/
def runSteps : Nat → State → Host.Outcome State Fault Refusal
  | 0, s => .next s
  | k + 1, s =>
    match step s with
    | .next t => runSteps k t
    | .fault r => .fault r
    | .refused r => .refused r

/-- `Path s is t`: from `s`, steps that run the branches `is` lead to `t`. -/
inductive Path : State → List Instr → State → Prop where
  /-- no step -/
  | nil (s : State) : Path s [] s
  /-- a first step, then the rest -/
  | cons {s t u : State} {i : Instr} {is : List Instr} :
      s.nextBranch = .ok i → step s = .next t → Path t is u → Path s (i :: is) u

/-- The advance edge (R110). -/
def isAdvance : Instr → Bool
  | .selAdvance _ => true
  | .bootPlain | .bootTheme | .waitDone | .waitHold | .runTick _ | .idleRest _ | .idleHold _ | .idleLongpress _
  | .idleExtreset _ | .selArm | .selArmCommit | .selHeld _ | .selQuiet | .selCommit | .tickFault _ _ _ _ _ => false

/-- The branches that stay in Select (R117). -/
def staysInSelect : Instr → Bool
  | .selArm | .selHeld _ | .selQuiet | .selAdvance _ => true
  | .bootPlain | .bootTheme | .waitDone | .waitHold | .runTick _ | .idleRest _ | .idleHold _ | .idleLongpress _
  | .idleExtreset _ | .selArmCommit | .selCommit | .tickFault _ _ _ _ _ => false

/-- The branches that leave Select by a commit (R111, R113, R117). -/
def isCommit : Instr → Bool
  | .selCommit | .selArmCommit => true
  | .bootPlain | .bootTheme | .waitDone | .waitHold | .runTick _ | .idleRest _ | .idleHold _ | .idleLongpress _
  | .idleExtreset _ | .selArm | .selHeld _ | .selQuiet | .selAdvance _ | .tickFault _ _ _ _ _ => false

/-- The reset pulses of one step that runs branch `i` from `s` (R147): one in a boot that reaches its suffix, one in a
commit with IGN = 0, none elsewhere. -/
def branchPulses (i : Instr) (s : State) : Nat :=
  match i with
  | .bootPlain | .waitDone => 1
  | .selCommit | .selArmCommit => if s.ign = 0#1 then 1 else 0
  | .bootTheme | .waitHold | .runTick _ | .idleRest _ | .idleHold _ | .idleLongpress _ | .idleExtreset _ | .selArm
  | .selHeld _ | .selQuiet | .selAdvance _ | .tickFault _ _ _ _ _ => 0

/-- The total of one step's sleeps, in the parameters of R6 (R200). -/
def branchDuration (i : Instr) (s : State) : Nat :=
  let c := s.cfg
  let pulse := c.tPulseAMs + c.tPulseBMs + c.tPostMs
  let suffix := pulse + 2 * c.selftestCycles * c.tSelftestHalfMs + c.tBootSettleMs
  match i with
  | .bootPlain => c.tSettleMs + suffix
  | .bootTheme => c.tSettleMs + c.tPollMs
  | .waitHold => c.tPollMs
  | .waitDone => suffix
  | .idleLongpress _ | .idleExtreset _ => c.fbToggles * c.tFbMs + c.tTickMs
  | .selAdvance _ => c.tSettleMs + c.tTickMs
  | .selCommit | .selArmCommit => (if s.ign = 0#1 then pulse else 0) + c.tTickMs
  | .runTick _ | .idleRest _ | .idleHold _ | .selArm | .selHeld _ | .selQuiet | .tickFault _ _ _ _ _ => c.tTickMs

/-! ### What cannot be observed -/

/-- Two states that differ at most in registers no rule reads before they are written: at POWERON all but PHASE
(R190), while the boot waits MODE, BTIMER, OB and IGN, in the tick loop OB and IGN outside Select (R24, R112, I16), and
at every step boundary the latched line levels (R93). -/
structure SameForRules (s t : State) : Prop where
  /-- the same run: parameters, phase, store, log, events and environment -/
  sameRun : t.cfg = s.cfg ∧ t.phase = s.phase ∧ t.store = s.store ∧ t.faultLog = s.faultLog ∧ t.trace = s.trace ∧
    t.stimulus = s.stimulus ∧ t.draws = s.draws
  /-- what the boot prefix writes -/
  afterPrefix : s.phase ≠ .powerOn → t.idx = s.idx ∧ t.theme = s.theme ∧ t.lastSaved = s.lastSaved ∧
    t.addrOut = s.addrOut ∧ t.ledOut = s.ledOut ∧ t.rstOe = s.rstOe
  /-- what the boot suffix writes and the ticks read -/
  inRun : s.phase = .run → t.mode = s.mode ∧ t.bTimer = s.bTimer ∧
    (s.mode = selectMode → t.ob = s.ob ∧ t.ign = s.ign)

end Sys2Proof.Machine
end

