-- ==== Sys2Proof/Certificates/Slice0/Obligations.lean ====
section
/-! DEFINITION. Obligations.lean: the statements for the provers. OBLIGATIONS.json gives each its basis and the rules it
formalises. A W row's `exec` is its branch alone; RUN_TICK's is the whole tick around it (assumption log entry 11).
A state equality `= .next { s with … }` is also the frame: every field not named is unchanged, the store's bytes
included. -/

open Sys2Proof Sys2Proof.Machine

/-! ### Encoding -/

/-- Decode and encode agree, in both directions, on every instruction with every operand and on every word. -/
def Obligations.DecodeAndEncodeAgree : Prop :=
  (∀ i : Instr, decode (encode i) = .ok i) ∧
  ∀ (x : StepWord) (i : Instr), decode x = .ok i → encode i = x

/-- R71: the phase word's table, the refused words, and that RUN_TICK does not use its SEL bit. -/
def Obligations.PhaseWordSelectsOneBranch : Prop :=
  decode (.q 0b000#3) = .ok .bootPlain ∧ decode (.q 0b001#3) = .ok .bootTheme ∧
  decode (.q 0b010#3) = .ok .waitDone ∧ decode (.q 0b011#3) = .ok .waitHold ∧
  (∀ x : BitVec 3, x &&& 0b110#3 = 0b100#3 → decode (.q x) = .ok (.runTick (wordBit 0 x))) ∧
  (∀ x : BitVec 3, x &&& 0b110#3 = 0b110#3 → decode (.q x) = .error .unformable) ∧
  (∀ s : State, s.qWord.extractLsb' 1 2 ≠ 0b11#2) ∧
  ∀ (a b : Bit) (s : State), exec (.runTick a) s = exec (.runTick b) s

/-- R75: the tick word's table; no word matches two rows. -/
def Obligations.TickWordSelectsOneBranch : Prop :=
  (∀ x : BitVec 6,
    (x &&& 0x37#6 = 0x00#6 → decode (.w x) = .ok (.idleRest (wordBit 3 x))) ∧
    (x &&& 0x37#6 = 0x04#6 → decode (.w x) = .ok (.idleHold (wordBit 3 x))) ∧
    (x &&& 0x37#6 = 0x05#6 → decode (.w x) = .ok (.idleLongpress (wordBit 3 x))) ∧
    (x &&& 0x37#6 = 0x06#6 → decode (.w x) = .ok (.idleExtreset (wordBit 3 x))) ∧
    (x &&& 0x3F#6 = 0x10#6 → decode (.w x) = .ok .selArm) ∧
    (x &&& 0x3F#6 = 0x11#6 → decode (.w x) = .ok .selArmCommit) ∧
    (x &&& 0x3D#6 = 0x14#6 → decode (.w x) = .ok (.selHeld (wordBit 1 x))) ∧
    (x &&& 0x3F#6 = 0x18#6 → decode (.w x) = .ok .selQuiet) ∧
    (x &&& 0x3F#6 = 0x19#6 → decode (.w x) = .ok .selCommit) ∧
    (x &&& 0x3D#6 = 0x1C#6 → decode (.w x) = .ok (.selAdvance (wordBit 1 x))) ∧
    (x &&& 0x20#6 = 0x20#6 → decode (.w x) =
      .ok (.tickFault (wordBit 4 x) (wordBit 3 x) (wordBit 2 x) (wordBit 1 x) (wordBit 0 x)))) ∧
  ∀ x : BitVec 6, wTable.countP (fun r => r.matches x) ≤ 1

/-- R76: the unformable words are refused, they are the only refused ones, the counts, and no state forms one. -/
def Obligations.UnformableWordsRefusedAndNeverFormed : Prop :=
  (∀ x : BitVec 6, decode (.w x) = .error .unformable ↔
    (x.extractLsb' 5 1 = 0#1 ∧ x.extractLsb' 1 2 = 0b01#2) ∨
    (x.extractLsb' 4 2 = 0b00#2 ∧ x.extractLsb' 0 3 = 0b001#3) ∨
    (x.extractLsb' 4 2 = 0b00#2 ∧ x.extractLsb' 0 3 = 0b111#3) ∨
    (x.extractLsb' 4 2 = 0b01#2 ∧ x.extractLsb' 2 1 = 1#1 ∧ x.extractLsb' 0 1 = 1#1)) ∧
  (∀ x : BitVec 3, decode (.q x) = .error .unformable ↔ x.extractLsb' 1 2 = 0b11#2) ∧
  (let refused := fun n : Nat => (decode (.w (BitVec.ofNat 6 n))).toOption.isNone
   (List.range 16).countP refused = 8 ∧ ((List.range 16).map (16 + ·)).countP refused = 8 ∧
   ((List.range 32).map (32 + ·)).countP refused = 0) ∧
  ∀ s : State, s.tickBranch ≠ .error .unformable ∧ s.phaseBranch ≠ .error .unformable

/-- Every branch a step can run is a well-formed instruction, and every well-formed instruction but RUN_TICK, which is
the tick around a W branch, is the branch of some state with legal parameters. -/
def Obligations.StepsFormExactlyTheWellFormedInstructions : Prop :=
  (∀ (s : State) (i : Instr), s.nextBranch = .ok i → i.wellFormed = true ∧ ∀ b, i ≠ .runTick b) ∧
  ∀ i : Instr, i.wellFormed = true → (∀ b, i ≠ .runTick b) → ∃ s : State, s.cfg.wf = true ∧ s.nextBranch = .ok i

/-- R73: EXP, by mode, with the increment modulo 256 and the strict comparison; W's EXP field is it, at the ButtonTimer
the tick starts with. -/
def Obligations.ExpComparesTheIncrementedTimer : Prop :=
  (∀ (c : Config) (mode : ModeCode) (b : Timer) (sel rst : Bit),
    expBit c mode b sel rst = 1#1 ↔
      (mode = 0b00#2 ∧ sel = 1#1 ∧ rst = 0#1 ∧ c.tLong < (b.toNat + 1) % 256) ∨
      (mode = 0b01#2 ∧ sel = 0#1 ∧ rst = 0#1 ∧ c.tCommit < (b.toNat + 1) % 256)) ∧
  ∀ s : State, (tickIndicator s).wWord.extractLsb' 0 1 =
    expBit s.cfg s.mode s.bTimer s.sample.1 s.sample.2

/-- The fields of the two decode words (R70, R72), ANY (R74) as the logical or, and the sample's `sel` from ANY when
RST is 0. -/
def Obligations.DecodeWordsHoldTheirFields : Prop :=
  ∀ s : State,
    s.qWord.extractLsb' 1 2 = s.phase.code ∧ s.qWord.extractLsb' 0 1 = s.sample.1 ∧
    s.wWord.extractLsb' 4 2 = s.mode ∧ s.wWord.extractLsb' 3 1 = s.ob ∧
    (s.wWord.extractLsb' 2 1 = 1#1 ↔ s.sample.1 = 1#1 ∨ s.sample.2 = 1#1) ∧
    s.wWord.extractLsb' 1 1 = s.sample.2 ∧
    s.wWord.extractLsb' 0 1 = expBit s.cfg s.mode s.bTimer s.sample.1 s.sample.2 ∧
    (s.sample.2 = 0#1 → s.sample.1 = s.wWord.extractLsb' 2 1)

/-- Words written out bit by bit from R71 and R75, and what they stand for. -/
def Obligations.WrittenOutWordsDecode : Prop :=
  decode (.q 0b011#3) = .ok .waitHold ∧ decode (.q 0b101#3) = .ok (.runTick 1#1) ∧
  decode (.w 0b001101#6) = .ok (.idleLongpress 1#1) ∧ decode (.w 0b000110#6) = .ok (.idleExtreset 0#1) ∧
  decode (.w 0b010110#6) = .ok (.selHeld 1#1) ∧ decode (.w 0b011100#6) = .ok (.selAdvance 0#1) ∧
  decode (.w 0b110100#6) = .ok (.tickFault 1#1 0#1 1#1 0#1 0#1) ∧ decode (.w 0b010101#6) = .error .unformable

/-! ### Sampling and the step -/

/-- R90 and R91: the sample is the inverted line levels, the reset line reads active while the core drives it, and the
levels of a step are the outside's next ones, listed or free (the list and the free environment are the model's form of
R14's draws, assumption log entry 7). -/
def Obligations.SampleReadsTheLineLevels : Prop :=
  (∀ s : State, s.sample.1 = ~~~s.selN ∧ (s.rstOe = 1#1 → s.sample.2 = 1#1) ∧
    (s.rstOe = 0#1 → s.sample.2 = ~~~s.rstOutside)) ∧
  (∀ (s : State) (p : Pins) (rest : List Pins), s.stimulus = p :: rest →
    s.drawPins = { s with selN := p.selN, rstOutside := p.rstN, stimulus := rest }) ∧
  ∀ s : State, s.stimulus = [] → s.drawPins =
    { s with selN := (Config.freePins s.draws).selN, rstOutside := (Config.freePins s.draws).rstN,
             draws := s.draws + 1 }

/-- A step runs the decoded instruction: with legal parameters, `step` is `exec` of the branch Q selects, in the state
with the step's levels; RUN_TICK is the indicator update, `exec` of the branch W selects, and the base sleep; with
illegal parameters the step is refused (U4). That `exec` of a W row is the branch alone is the model's convention
(assumption log entry 11). -/
def Obligations.StepRunsTheDecodedInstruction : Prop :=
  (∀ (s : State) (i : Instr), s.cfg.wf = true → s.drawPins.phaseBranch = .ok i → step s = exec i s.drawPins) ∧
  (∀ (s : State) (sel : Bit) (i : Instr), s.tickBranch = .ok i →
    exec (.runTick sel) s = thenDo (exec i (tickIndicator s)) tickClose) ∧
  ∀ s : State, s.cfg.wf = false → step s = .refused .badConfig

/-- "the system has no halt state; it always keeps ticking": every instruction completes in every state, and with legal
parameters a run of any length answers a next state. -/
def Obligations.NoHaltState : Prop :=
  (∀ (i : Instr) (s : State), ∃ t, exec i s = .next t) ∧
  ∀ (k : Nat) (s : State), s.cfg.wf = true → ∃ t : State, runSteps k s = .next t

/-- A step keeps the parameters, takes exactly one sample, only appends events, and adds to the fault log exactly in a
tick with an invalid mode. The trace and the list of samples are the model's fields (assumption log entries 7, 9). -/
def Obligations.StepSamplesOnceAndOnlyAppends : Prop :=
  ∀ s t : State, step s = .next t →
    t.cfg = s.cfg ∧ t.stimulus = s.stimulus.tail ∧
    t.draws = (if s.stimulus = [] then s.draws + 1 else s.draws) ∧
    (∃ ev, t.trace = s.trace ++ ev) ∧
    t.faultLog = s.faultLog ++
      (if s.phase = .run ∧ (s.mode = 0b10#2 ∨ s.mode = 0b11#2) then [.faultMode s.mode] else [])

/-- R100: RUN_TICK. In a valid mode the indicator update comes first, in an invalid mode it is skipped; then exactly
one branch, W's; then the base sleep. The tick completes in every state. -/
def Obligations.TickIsIndicatorBranchAndBaseSleep : Prop :=
  ∀ (sel : Bit) (s : State), ∃ (i : Instr) (t : State), s.tickBranch = .ok i ∧
    exec i (if s.mode = 0b00#2 ∨ s.mode = 0b01#2 then
        { s with ledOut := s.indicatorNow, trace := s.trace ++ [.evLed s.indicatorNow] } else s) = .next t ∧
    exec (.runTick sel) s = .next { t with trace := t.trace ++ [.evSleep s.cfg.tTickMs] }

/-! ### Idle -/

/-- R102: IDLE_REST: which state selects it, its branch, its whole tick, and a press shorter than the threshold leaves
no trace. -/
def Obligations.IdleRestClearsTheTimer : Prop :=
  (∀ s : State, s.mode = idleMode → s.sample = (0#1, 0#1) → s.tickBranch = .ok (.idleRest s.ob)) ∧
  (∀ (ob : Bit) (s : State), exec (.idleRest ob) s = .next { s with bTimer := 0#8 }) ∧
  (∀ (sel : Bit) (s : State), s.mode = idleMode → s.sample = (0#1, 0#1) →
    exec (.runTick sel) s = .next { s with
      bTimer := 0#8, ledOut := s.indicatorNow,
      trace := s.trace ++ [.evLed s.indicatorNow, .evSleep s.cfg.tTickMs] }) ∧
  ∀ (s : State) (n : Nat) (rest : List Pins), s.cfg.wf = true → s.phase = .run → s.mode = idleMode →
    s.bTimer = 0#8 → s.rstOe = 0#1 → n ≤ s.cfg.tLong →
    s.stimulus = List.replicate n ⟨0#1, 1#1⟩ ++ ⟨1#1, 1#1⟩ :: rest →
    ∃ t : State, runSteps (n + 1) s = .next t ∧ t.mode = idleMode ∧ t.bTimer = 0#8

/-- R103: IDLE_HOLD: which state selects it, its branch with the wrap from 255 to 0, its whole tick, and that from
power-on the increment never wraps in Idle. -/
def Obligations.IdleHoldCountsThePress : Prop :=
  (∀ s : State, s.mode = idleMode → s.sample = (1#1, 0#1) → (s.bTimer.toNat + 1) % 256 ≤ s.cfg.tLong →
    s.tickBranch = .ok (.idleHold s.ob)) ∧
  (∀ (ob : Bit) (s : State),
    exec (.idleHold ob) s = .next { s with bTimer := BitVec.ofNat 8 ((s.bTimer.toNat + 1) % 256) }) ∧
  (∀ (sel : Bit) (s : State), s.mode = idleMode → s.sample = (1#1, 0#1) →
    (s.bTimer.toNat + 1) % 256 ≤ s.cfg.tLong →
    exec (.runTick sel) s = .next { s with
      bTimer := s.bTimer + 1#8, ledOut := s.indicatorNow,
      trace := s.trace ++ [.evLed s.indicatorNow, .evSleep s.cfg.tTickMs] }) ∧
  ∀ s : State, Reachable s → s.phase = .run → s.mode = idleMode → s.bTimer ≠ 255#8

/-- R104: IDLE_LONGPRESS: which state selects it, its branch, its whole tick, that a press from rest enters Select on
exactly the `T_LONG + 1`-th tick, with the index unchanged, and that from power-on ButtonTimer is then `T_LONG`. -/
def Obligations.LongPressEntersSelect : Prop :=
  (∀ s : State, s.mode = idleMode → s.sample = (1#1, 0#1) → s.cfg.tLong < (s.bTimer.toNat + 1) % 256 →
    s.tickBranch = .ok (.idleLongpress s.ob)) ∧
  (∀ (ob : Bit) (s : State), s.cfg.wf = true → exec (.idleLongpress ob) s = .next { s with
    mode := selectMode, bTimer := 0#8, ob := 0#1, ign := 0#1,
    trace := s.trace ++ feedbackEvents s.cfg s.ledOut }) ∧
  (∀ (sel : Bit) (s : State), s.cfg.wf = true → s.mode = idleMode → s.sample = (1#1, 0#1) →
    s.cfg.tLong < (s.bTimer.toNat + 1) % 256 →
    exec (.runTick sel) s = .next { s with
      mode := selectMode, bTimer := 0#8, ob := 0#1, ign := 0#1, ledOut := s.indicatorNow,
      trace := s.trace ++ (.evLed s.indicatorNow :: feedbackEvents s.cfg s.indicatorNow
        ++ [.evSleep s.cfg.tTickMs]) }) ∧
  (∀ (s : State) (rest : List Pins), s.cfg.wf = true → s.phase = .run → s.mode = idleMode → s.bTimer = 0#8 →
    s.rstOe = 0#1 → s.stimulus = List.replicate (s.cfg.tLong + 1) ⟨0#1, 1#1⟩ ++ rest →
    (∀ j, j ≤ s.cfg.tLong → ∃ u : State, runSteps j s = .next u ∧ u.mode = idleMode ∧
      u.bTimer.toNat = j) ∧
    ∃ t : State, runSteps (s.cfg.tLong + 1) s = .next t ∧ t.mode = selectMode ∧ t.bTimer = 0#8 ∧
      t.ob = 0#1 ∧ t.ign = 0#1 ∧ t.idx = s.idx) ∧
  ∀ (s : State) (ob : Bit), Reachable s → s.nextBranch = .ok (.idleLongpress ob) → s.bTimer.toNat = s.cfg.tLong

/-- R105: IDLE_EXTRESET: which state selects it (the reset line wins over select, whatever ButtonTimer holds), its
branch, and its whole tick. -/
def Obligations.ResetLineEntersSelect : Prop :=
  (∀ s : State, s.mode = idleMode → s.sample.2 = 1#1 → s.tickBranch = .ok (.idleExtreset s.ob)) ∧
  (∀ (ob : Bit) (s : State), s.cfg.wf = true → exec (.idleExtreset ob) s = .next { s with
    mode := selectMode, bTimer := 0#8, ob := 0#1, ign := 1#1,
    trace := s.trace ++ feedbackEvents s.cfg s.ledOut }) ∧
  ∀ (sel : Bit) (s : State), s.cfg.wf = true → s.mode = idleMode → s.sample.2 = 1#1 →
    exec (.runTick sel) s = .next { s with
      mode := selectMode, bTimer := 0#8, ob := 0#1, ign := 1#1, ledOut := s.indicatorNow,
      trace := s.trace ++ (.evLed s.indicatorNow :: feedbackEvents s.cfg s.indicatorNow
        ++ [.evSleep s.cfg.tTickMs]) }

/-! ### Select -/

/-- R106: SEL_ARM: which state selects it, its branch, its whole tick, and that from power-on ButtonTimer is 0 there. -/
def Obligations.SelArmLatchesAndCounts : Prop :=
  (∀ s : State, s.mode = selectMode → s.ob = 0#1 → s.sample = (0#1, 0#1) →
    (s.bTimer.toNat + 1) % 256 ≤ s.cfg.tCommit → s.tickBranch = .ok .selArm) ∧
  (∀ s : State, exec .selArm s = .next { s with
    ob := 1#1, bTimer := BitVec.ofNat 8 ((s.bTimer.toNat + 1) % 256) }) ∧
  (∀ (sel : Bit) (s : State), s.mode = selectMode → s.ob = 0#1 → s.sample = (0#1, 0#1) →
    (s.bTimer.toNat + 1) % 256 ≤ s.cfg.tCommit →
    exec (.runTick sel) s = .next { s with
      ob := 1#1, bTimer := s.bTimer + 1#8, ledOut := s.indicatorNow,
      trace := s.trace ++ [.evLed s.indicatorNow, .evSleep s.cfg.tTickMs] }) ∧
  ∀ s : State, Reachable s → s.nextBranch = .ok .selArm → s.bTimer = 0#8

/-- R107: SEL_HELD: which state selects it, through either line, its branch, its whole tick. -/
def Obligations.SelHeldClearsTheTimer : Prop :=
  (∀ s : State, s.mode = selectMode → s.ob = 0#1 → (s.sample.1 = 1#1 ∨ s.sample.2 = 1#1) →
    s.tickBranch = .ok (.selHeld s.sample.2)) ∧
  (∀ (rst : Bit) (s : State), exec (.selHeld rst) s = .next { s with bTimer := 0#8 }) ∧
  ∀ (sel : Bit) (s : State), s.mode = selectMode → s.ob = 0#1 → (s.sample.1 = 1#1 ∨ s.sample.2 = 1#1) →
    exec (.runTick sel) s = .next { s with
      bTimer := 0#8, ledOut := s.indicatorNow,
      trace := s.trace ++ [.evLed s.indicatorNow, .evSleep s.cfg.tTickMs] }

/-- R108: SEL_QUIET: which state selects it, its branch with the wrap from 255 to 0, its whole tick, and that from
power-on the increment never wraps in Select. -/
def Obligations.SelQuietCounts : Prop :=
  (∀ s : State, s.mode = selectMode → s.ob = 1#1 → s.sample = (0#1, 0#1) →
    (s.bTimer.toNat + 1) % 256 ≤ s.cfg.tCommit → s.tickBranch = .ok .selQuiet) ∧
  (∀ s : State, exec .selQuiet s = .next { s with bTimer := BitVec.ofNat 8 ((s.bTimer.toNat + 1) % 256) }) ∧
  (∀ (sel : Bit) (s : State), s.mode = selectMode → s.ob = 1#1 → s.sample = (0#1, 0#1) →
    (s.bTimer.toNat + 1) % 256 ≤ s.cfg.tCommit →
    exec (.runTick sel) s = .next { s with
      bTimer := s.bTimer + 1#8, ledOut := s.indicatorNow,
      trace := s.trace ++ [.evLed s.indicatorNow, .evSleep s.cfg.tTickMs] }) ∧
  ∀ s : State, Reachable s → s.phase = .run → s.mode = selectMode → s.bTimer ≠ 255#8

/-- R110: SEL_ADVANCE: which state selects it, through either line, its branch, its whole tick, the index modulo 4, and
that a press that goes on does not advance again. -/
def Obligations.SelAdvanceStepsTheBank : Prop :=
  (∀ s : State, s.mode = selectMode → s.ob = 1#1 → (s.sample.1 = 1#1 ∨ s.sample.2 = 1#1) →
    s.tickBranch = .ok (.selAdvance s.sample.2)) ∧
  (∀ (rst : Bit) (s : State), exec (.selAdvance rst) s = .next { s with
    ob := 0#1, ign := 0#1, idx := BitVec.ofNat 2 ((s.idx.toNat + 1) % 4),
    addrOut := BitVec.ofNat 2 ((s.idx.toNat + 1) % 4), bTimer := 0#8,
    trace := s.trace ++
      [.evAddr (BitVec.ofNat 2 ((s.idx.toNat + 1) % 4)), .evSleep s.cfg.tSettleMs] }) ∧
  (∀ (sel : Bit) (s : State), s.mode = selectMode → s.ob = 1#1 → (s.sample.1 = 1#1 ∨ s.sample.2 = 1#1) →
    exec (.runTick sel) s = .next { s with
      ob := 0#1, ign := 0#1, idx := s.idx + 1#2, addrOut := s.idx + 1#2, bTimer := 0#8,
      ledOut := s.indicatorNow,
      trace := s.trace ++ [.evLed s.indicatorNow, .evAddr (s.idx + 1#2), .evSleep s.cfg.tSettleMs,
        .evSleep s.cfg.tTickMs] }) ∧
  ∀ (rst : Bit) (s t : State), exec (.selAdvance rst) s = .next t → s.mode = selectMode →
    t.drawPins.sample.1 = 1#1 ∨ t.drawPins.sample.2 = 1#1 →
    t.drawPins.tickBranch = .ok (.selHeld t.drawPins.sample.2)

/-- R111 with R112 and R131: SEL_COMMIT: which state selects it, its branch (pulse unless IGN, then the write if the
index changed, then Idle), its whole tick, the bytes of the store, and that it is the `T_COMMIT + 1`-th released tick
after the last press. -/
def Obligations.SelCommitPulsesPersistsAndRests : Prop :=
  (∀ s : State, s.mode = selectMode → s.ob = 1#1 → s.sample = (0#1, 0#1) →
    s.cfg.tCommit < (s.bTimer.toNat + 1) % 256 → s.tickBranch = .ok .selCommit) ∧
  (∀ s : State, exec .selCommit s = .next { s with
    mode := idleMode, bTimer := 0#8, rstOe := if s.ign = 0#1 then 0#1 else s.rstOe,
    store := if s.idx = s.lastSaved then s.store else Memory.write s.store s.cfg.slotIdx (zext8 s.idx),
    lastSaved := s.idx, trace := s.trace ++ commitEvents s }) ∧
  (∀ (sel : Bit) (s : State), s.mode = selectMode → s.ob = 1#1 → s.sample = (0#1, 0#1) →
    s.cfg.tCommit < (s.bTimer.toNat + 1) % 256 →
    exec (.runTick sel) s = .next { s with
      mode := idleMode, bTimer := 0#8, rstOe := if s.ign = 0#1 then 0#1 else s.rstOe, ledOut := s.indicatorNow,
      store := if s.idx = s.lastSaved then s.store else Memory.write s.store s.cfg.slotIdx (zext8 s.idx),
      lastSaved := s.idx,
      trace := s.trace ++ (.evLed s.indicatorNow :: commitEvents { s with ledOut := s.indicatorNow }
        ++ [.evSleep s.cfg.tTickMs]) }) ∧
  (∀ s t : State, exec .selCommit s = .next t →
    (∀ a, a ≠ s.cfg.slotIdx → Memory.read t.store a = Memory.read s.store a) ∧
    (s.idx = s.lastSaved → t.store = s.store) ∧
    (s.idx ≠ s.lastSaved → Memory.wf s.store → (t.memRead .idx).toNat = s.idx.toNat)) ∧
  ∀ (s : State) (rest : List Pins), s.cfg.wf = true → s.phase = .run → s.mode = selectMode → s.ob = 0#1 →
    s.bTimer = 0#8 → s.rstOe = 0#1 → 0 < s.cfg.tCommit →
    s.stimulus = List.replicate (s.cfg.tCommit + 1) ⟨1#1, 1#1⟩ ++ rest →
    ∃ u : State, runSteps s.cfg.tCommit s = .next u ∧ u.nextBranch = .ok .selCommit

/-- R113: SEL_ARM_COMMIT: which state selects it, its branch (the arm, then the commit), its whole tick, the bytes of
the store, and that from power-on it needs `T_COMMIT = 0`. -/
def Obligations.SelArmCommitArmsAndCommits : Prop :=
  (∀ s : State, s.mode = selectMode → s.ob = 0#1 → s.sample = (0#1, 0#1) →
    s.cfg.tCommit < (s.bTimer.toNat + 1) % 256 → s.tickBranch = .ok .selArmCommit) ∧
  (∀ s : State, exec .selArmCommit s = .next { s with
    ob := 1#1, mode := idleMode, bTimer := 0#8, rstOe := if s.ign = 0#1 then 0#1 else s.rstOe,
    store := if s.idx = s.lastSaved then s.store else Memory.write s.store s.cfg.slotIdx (zext8 s.idx),
    lastSaved := s.idx, trace := s.trace ++ commitEvents s }) ∧
  (∀ (sel : Bit) (s : State), s.mode = selectMode → s.ob = 0#1 → s.sample = (0#1, 0#1) →
    s.cfg.tCommit < (s.bTimer.toNat + 1) % 256 →
    exec (.runTick sel) s = .next { s with
      ob := 1#1, mode := idleMode, bTimer := 0#8, rstOe := if s.ign = 0#1 then 0#1 else s.rstOe,
      ledOut := s.indicatorNow,
      store := if s.idx = s.lastSaved then s.store else Memory.write s.store s.cfg.slotIdx (zext8 s.idx),
      lastSaved := s.idx,
      trace := s.trace ++ (.evLed s.indicatorNow :: commitEvents { s with ledOut := s.indicatorNow }
        ++ [.evSleep s.cfg.tTickMs]) }) ∧
  (∀ s t : State, exec .selArmCommit s = .next t →
    (∀ a, a ≠ s.cfg.slotIdx → Memory.read t.store a = Memory.read s.store a) ∧
    (s.idx = s.lastSaved → t.store = s.store) ∧
    (s.idx ≠ s.lastSaved → Memory.wf s.store → (t.memRead .idx).toNat = s.idx.toNat)) ∧
  ∀ s : State, Reachable s → s.nextBranch = .ok .selArmCommit → s.cfg.tCommit = 0

/-- R109: the Select tick as one algorithm, of which the six Select branches are the cases. -/
def Obligations.SelectTickIsOneAlgorithm : Prop :=
  ∀ (sel : Bit) (s : State), s.mode = selectMode →
    exec (.runTick sel) s = .next (tickClose (selectAlgorithm s.sample.1 s.sample.2 (tickIndicator s)))

/-! ### The fault branch -/

/-- R115: TICK_FAULT: which state selects it, its branch, its whole tick without an indicator update. -/
def Obligations.TickFaultFlashesAndForcesTheAddress : Prop :=
  (∀ s : State, (s.mode = 0b10#2 ∨ s.mode = 0b11#2) →
    ∃ ob any rst, s.tickBranch = .ok (.tickFault (s.mode.extractLsb' 0 1) ob any rst 0#1)) ∧
  (∀ (m o a r x : Bit) (s : State), exec (.tickFault m o a r x) s = .next { s with
    ledOut := ~~~s.ledOut, addrOut := s.cfg.faultAddr, faultLog := s.faultLog ++ [.faultMode s.mode],
    trace := s.trace ++ [.evLed (~~~s.ledOut), .evAddr s.cfg.faultAddr] }) ∧
  ∀ (sel : Bit) (s : State), (s.mode = 0b10#2 ∨ s.mode = 0b11#2) → exec (.runTick sel) s = .next { s with
    ledOut := ~~~s.ledOut, addrOut := s.cfg.faultAddr, faultLog := s.faultLog ++ [.faultMode s.mode],
    trace := s.trace ++ [.evLed (~~~s.ledOut), .evAddr s.cfg.faultAddr, .evSleep s.cfg.tTickMs] }

/-- R173: there is no return from the fault but power: after any number of ticks in an invalid mode the mode and every
register and byte the rules name are as before, the log has one record a tick, the LED has changed once a tick; a power
cycle starts the boot, and every boot step that ends the boot ends in Idle. -/
def Obligations.FaultRepeatsUntilPowerOff : Prop :=
  (∀ (k : Nat) (s : State), s.cfg.wf = true → s.phase = .run → (s.mode = 0b10#2 ∨ s.mode = 0b11#2) →
    ∃ t : State, runSteps k s = .next t ∧ t.phase = .run ∧ t.mode = s.mode ∧ t.idx = s.idx ∧
      t.bTimer = s.bTimer ∧ t.ob = s.ob ∧ t.ign = s.ign ∧ t.theme = s.theme ∧ t.lastSaved = s.lastSaved ∧
      t.store = s.store ∧ t.rstOe = s.rstOe ∧ (0 < k → t.addrOut = s.cfg.faultAddr) ∧
      t.ledOut = (if k % 2 = 0 then s.ledOut else ~~~s.ledOut) ∧
      t.faultLog = s.faultLog ++ List.replicate k (.faultMode s.mode)) ∧
  (∀ s : State, s.powerCycle.phase = .powerOn) ∧
  ∀ s t : State, s.phase ≠ .run → step s = .next t → t.phase = .run → t.mode = idleMode

/-! ### Boot -/

/-- R165 with R163, R164 and R132: BOOT_PLAIN: which state selects it, and everything it leaves. -/
def Obligations.BootPlainLoadsPulsesAndStartsIdle : Prop :=
  (∀ s : State, s.phase = .powerOn → s.sample.1 = 0#1 → s.phaseBranch = .ok .bootPlain) ∧
  ∀ s : State, exec .bootPlain s = .next { s with
    phase := .run, mode := idleMode, bTimer := 0#8, ob := 0#1, ign := 0#1, idx := s.bootIndex,
    lastSaved := s.bootIndex, theme := s.bootTheme, addrOut := s.bootIndex, ledOut := 0#1, rstOe := 0#1,
    trace := s.trace ++ (prefixEvents s.cfg s.bootIndex ++ suffixEvents s.cfg 0#1) }

/-- R166 with R163, R132 and R133: BOOT_THEME: which state selects it, everything it leaves, and the bytes of the
store. -/
def Obligations.BootThemeTogglesAndWaits : Prop :=
  (∀ s : State, s.phase = .powerOn → s.sample.1 = 1#1 → s.phaseBranch = .ok .bootTheme) ∧
  (∀ s : State, exec .bootTheme s = .next { s with
    phase := .waitRelease, idx := s.bootIndex, lastSaved := s.bootIndex, theme := ~~~s.bootTheme,
    addrOut := s.bootIndex, ledOut := 0#1, rstOe := 0#1,
    store := Memory.write s.store s.cfg.slotTheme (zext8 (~~~s.bootTheme)),
    trace := s.trace ++ (prefixEvents s.cfg s.bootIndex
      ++ [.evStoreWrite s.cfg.slotTheme (zext8 (~~~s.bootTheme)), .evSleep s.cfg.tPollMs]) }) ∧
  ∀ s t : State, exec .bootTheme s = .next t →
    (∀ a, a ≠ s.cfg.slotTheme → Memory.read t.store a = Memory.read s.store a) ∧
    (Memory.wf s.store → (t.memRead .theme).toNat = 1 - s.bootTheme.toNat)

/-- R167: WAIT_HOLD: which state selects it, its one sleep and nothing else, and that select held for any number of
polls keeps the boot waiting, with no pulse. -/
def Obligations.WaitHoldOnlyWaits : Prop :=
  (∀ s : State, s.phase = .waitRelease → s.sample.1 = 1#1 → s.phaseBranch = .ok .waitHold) ∧
  (∀ s : State, exec .waitHold s = .next { s with trace := s.trace ++ [.evSleep s.cfg.tPollMs] }) ∧
  ∀ (s : State) (pins rest : List Pins), s.cfg.wf = true → s.phase = .waitRelease →
    s.stimulus = pins ++ rest → (∀ p ∈ pins, p.selN = 0#1) →
    ∃ t : State, runSteps pins.length s = .next t ∧ t.phase = .waitRelease ∧
      pulses t.trace = pulses s.trace

/-- R168 with R164: WAIT_DONE: which state selects it, and everything it leaves. -/
def Obligations.WaitDoneEndsTheBoot : Prop :=
  (∀ s : State, s.phase = .waitRelease → s.sample.1 = 0#1 → s.phaseBranch = .ok .waitDone) ∧
  ∀ s : State, exec .waitDone s = .next { s with
    phase := .run, mode := idleMode, bTimer := 0#8, ob := 0#1, ign := 0#1, rstOe := 0#1,
    trace := s.trace ++ suffixEvents s.cfg s.ledOut }

/-- What reset leaves: PHASE is POWERON, the outputs stand at ADDR_POWERON, nothing is emitted, recorded or listed, and
the parameters are R6's defaults, which are legal. The defaults and the empty store are the model's choice (assumption
log entries 2, 4, 5). -/
def Obligations.ResetIsAtPowerOnWithDefaults : Prop :=
  AtPowerOn State.reset ∧ State.reset.addrOut = State.reset.cfg.addrPowerOn ∧ State.reset.store = [] ∧
  State.reset.cfg = {
    tLong := 15, tCommit := 30, tTickMs := 50, tSettleMs := 20, tPulseAMs := 50, tPulseBMs := 200, tPostMs := 250,
    selftestCycles := 10, tSelftestHalfMs := 50, tBootSettleMs := 250, fbToggles := 4, tFbMs := 50, tPollMs := 50,
    slotIdx := 0, slotTheme := 1, faultAddr := Config.openFaultAddr, addrPowerOn := Config.openAddrPowerOn }

/-- R184 and R13: power off and on keeps only the store; a fresh run starts. The operation and what goes on across it
(the parameters, the outside's future) are the model's (assumption log entry 18). -/
def Obligations.PowerCycleKeepsOnlyTheStore : Prop :=
  ∀ s : State, s.powerCycle.store = s.store ∧ s.powerCycle.phase = .powerOn ∧
    s.powerCycle.addrOut = s.cfg.addrPowerOn ∧ s.powerCycle.trace = [] ∧ s.powerCycle.cfg = s.cfg ∧
    (s.cfg.wf = true → Memory.wf s.store → AtPowerOn s.powerCycle) ∧
    ∀ t : State, t.store = s.store → t.cfg = s.cfg → t.stimulus = s.stimulus → t.draws = s.draws →
      t.powerCycle = s.powerCycle

/-! ### Indicator and store formats -/

/-- R155 with R156 and R157: the indicator's level: base XOR blink. -/
def Obligations.IndicatorIsBaseXorBlink : Prop :=
  ∀ (idx : Bank) (theme : Bit) (b : Timer),
    indicator idx theme b =
      bitOf (decide (theme = 1#1 ∧ idx ≠ 0#2) != decide (b.toNat / 2 % 2 = 1))

/-- R161: after every tick in a valid mode LED_OUT is the indicator's level at the start of that tick. -/
def Obligations.LedShowsTheIndicatorBetweenTicks : Prop :=
  ∀ s t : State, step s = .next t → s.phase = .run → (s.mode = 0b00#2 ∨ s.mode = 0b01#2) →
    t.ledOut = indicator s.idx s.theme s.bTimer

/-- R52 and R53: the masks on read, the zero extension on write, and every byte is accepted by the boot. -/
def Obligations.SlotFormatsMaskAndZeroExtend : Prop :=
  (∀ v : Byte, (indexOfByte v).toNat = v.toNat % 4 ∧ (themeOfByte v).toNat = v.toNat % 2) ∧
  (∀ (i : Bank) (b : Bit), (zext8 i).toNat = i.toNat ∧ (zext8 b).toNat = b.toNat) ∧
  ∀ (s : State) (m : List Host.Cell), (∃ t, exec .bootPlain { s with store := m } = .next t) ∧
    ∃ t, exec .bootTheme { s with store := m } = .next t

/-- The store's list is canonical: two canonical stores that read the same at every address are the same data. The list
and its form are the model's (assumption log entry 6). -/
def Obligations.EqualReadsMeanEqualStores : Prop :=
  ∀ m n : List Host.Cell, Memory.wf m → Memory.wf n → (∀ a, Memory.read m a = Memory.read n a) → m = n

/-! ### Whole-machine rules -/

/-- R117: the mode transitions, by the tick's branch: all of them, and no others. -/
def Obligations.ModeTransitionsAreTheTable : Prop :=
  ∀ (s t : State) (i : Instr), s.phase = .run → step s = .next t → s.nextBranch = .ok i →
    match i with
    | .idleRest _ | .idleHold _ => s.mode = idleMode ∧ t.mode = idleMode
    | .idleLongpress _ | .idleExtreset _ => s.mode = idleMode ∧ t.mode = selectMode
    | .selArm | .selHeld _ | .selQuiet | .selAdvance _ => s.mode = selectMode ∧ t.mode = selectMode
    | .selCommit | .selArmCommit => s.mode = selectMode ∧ t.mode = idleMode
    | .tickFault _ _ _ _ _ => (s.mode = 0b10#2 ∨ s.mode = 0b11#2) ∧ t.mode = s.mode
    | .bootPlain | .bootTheme | .waitDone | .waitHold | .runTick _ => False

/-- R116: in RUN the index moves only by the advance edge, to `(IDX + 1) mod 4`; ButtonTimer only by `+ 1` mod 256 or
to 0, or, in the fault branch, not at all; THEME never. -/
def Obligations.CountersMoveOnlyByTheirArithmetic : Prop :=
  ∀ (s t : State) (i : Instr), s.phase = .run → step s = .next t → s.nextBranch = .ok i →
    t.idx.toNat = (if isAdvance i then (s.idx.toNat + 1) % 4 else s.idx.toNat) ∧ t.theme = s.theme ∧
    (t.bTimer.toNat = (s.bTimer.toNat + 1) % 256 ∨ t.bTimer = 0#8 ∨
      (t.bTimer = s.bTimer ∧ (s.mode = 0b10#2 ∨ s.mode = 0b11#2)))

/-- R134: in RUN a step writes the store at most once, exactly in a commit whose index differs from the shadow; and a
second commit of the same index, with no commit between, writes nothing. -/
def Obligations.WriteOnlyInACommitThatChangesTheIndex : Prop :=
  (∀ (s t : State) (i : Instr), s.phase = .run → step s = .next t → s.nextBranch = .ok i →
    storeWrites t.trace = storeWrites s.trace ++
      (if isCommit i ∧ s.idx ≠ s.lastSaved then [(s.cfg.slotIdx, zext8 s.idx)] else []) ∧
    t.lastSaved = if isCommit i then s.idx else s.lastSaved) ∧
  ∀ (s a b u : State) (first second : Instr) (mids : List Instr), s.phase = .run →
    isCommit first → isCommit second → (∀ m ∈ mids, isCommit m = false) →
    Path s [first] a → Path a mids b → Path b [second] u → b.idx = a.idx →
    storeWrites u.trace = storeWrites a.trace

/-- R135: the two slots are independent, and the next boot finds what the last one and the commits persisted: with
select released it loads the theme in use and the confirmed index, and writes nothing. -/
def Obligations.SlotsAreIndependentAndSurvivePower : Prop :=
  (∀ (s t : State) (i : Instr), step s = .next t → s.nextBranch = .ok i →
    (isCommit i = false → Memory.read t.store s.cfg.slotIdx = Memory.read s.store s.cfg.slotIdx) ∧
    (i ≠ .bootTheme → Memory.read t.store s.cfg.slotTheme = Memory.read s.store s.cfg.slotTheme)) ∧
  ∀ s u : State, Reachable s → s.phase ≠ .powerOn → s.powerCycle.nextBranch = .ok .bootPlain →
    step s.powerCycle = .next u → u.theme = s.theme ∧ u.idx = s.lastSaved ∧ storeWrites u.trace = []

/-- R147: a step pulses the reset line exactly once when it ends the boot or commits with IGN = 0, and otherwise not;
and over a run from power-on the drives alternate, starting with the boot's release. -/
def Obligations.PulsesOnlyAtBootAndUnsuppressedCommit : Prop :=
  (∀ (s t : State) (i : Instr), step s = .next t → s.nextBranch = .ok i →
    pulses t.trace = pulses s.trace + branchPulses i s) ∧
  ∀ (s t : State) (is : List Instr), AtPowerOn s → is ≠ [] → Path s is t →
    rstDrives t.trace = 0#1 :: (List.replicate (pulses t.trace) [1#1, 0#1]).flatten

/-- R114: the reset-request law. A Select visit is an entry, ticks that stay in Select, and a commit. Entered through
the reset line with no advance edge it ends without a pulse; with an advance edge, through either line, or entered by a
long press, it ends with exactly one. -/
def Obligations.SelectVisitPulsesUnlessSuppressed : Prop :=
  ∀ (s t : State) (entry last : Instr) (mids : List Instr) (ob : Bit), s.phase = .run →
    (entry = .idleExtreset ob ∨ entry = .idleLongpress ob) → (∀ m ∈ mids, staysInSelect m = true) →
    isCommit last = true → Path s (entry :: mids ++ [last]) t →
    pulses t.trace = pulses s.trace +
      (if entry = .idleExtreset ob ∧ mids.any isAdvance = false then 0 else 1)

/-- R118: while a line stays pressed Select goes on, with no pulse and no write; and from the last pressed tick the
commit comes on exactly the `T_COMMIT + 1`-th released tick, from an armed Select with ButtonTimer k on the
`T_COMMIT + 1 - k`-th. -/
def Obligations.CommitComesAfterExactlyTheQuietTime : Prop :=
  (∀ (s : State) (pins rest : List Pins), s.cfg.wf = true → s.phase = .run → s.mode = selectMode →
    s.stimulus = pins ++ rest → (∀ p ∈ pins, p.selN = 0#1 ∨ p.rstN = 0#1) →
    ∃ t : State, runSteps pins.length s = .next t ∧ t.mode = selectMode ∧
      pulses t.trace = pulses s.trace ∧ storeWrites t.trace = storeWrites s.trace ∧
      (pins ≠ [] → t.ob = 0#1 ∧ t.bTimer = 0#8)) ∧
  ∀ (s : State) (n : Nat) (rest : List Pins), s.cfg.wf = true → s.phase = .run → s.mode = selectMode →
    s.rstOe = 0#1 → ((s.ob = 1#1 ∧ s.bTimer.toNat ≤ s.cfg.tCommit) ∨ (s.ob = 0#1 ∧ s.bTimer = 0#8)) →
    n = s.cfg.tCommit + 1 - s.bTimer.toNat → s.stimulus = List.replicate n ⟨1#1, 1#1⟩ ++ rest →
    (∀ j, j < n → ∃ u : State, runSteps j s = .next u ∧ u.mode = selectMode) ∧
    ∃ t : State, runSteps n s = .next t ∧ t.mode = idleMode

/-- R200: the modelled duration of each step: the sum of its sleeps in the parameters, and R200's figures at the
defaults. -/
def Obligations.StepDurationsAreTheTable : Prop :=
  (∀ (s t : State) (i : Instr), step s = .next t → s.nextBranch = .ok i →
    duration t.trace = duration s.trace + branchDuration i s) ∧
  ∀ s : State, s.cfg = Config.default → ∀ ob : Bit,
    branchDuration (.idleRest ob) s = 50 ∧ branchDuration (.idleHold ob) s = 50 ∧ branchDuration .selArm s = 50 ∧
    branchDuration (.selHeld ob) s = 50 ∧ branchDuration .selQuiet s = 50 ∧
    branchDuration (.tickFault ob ob ob ob ob) s = 50 ∧ branchDuration (.idleLongpress ob) s = 250 ∧
    branchDuration (.idleExtreset ob) s = 250 ∧ branchDuration (.selAdvance ob) s = 70 ∧
    branchDuration .selCommit s = (if s.ign = 0#1 then 550 else 50) ∧
    branchDuration .selArmCommit s = (if s.ign = 0#1 then 550 else 50) ∧
    branchDuration .bootPlain s = 1770 ∧ branchDuration .bootTheme s = 70 ∧ branchDuration .waitHold s = 50 ∧
    branchDuration .waitDone s = 1750

/-! ### Invariants and runs -/

/-- The invariant holds at every power-on, State.reset among them. -/
def Obligations.InvariantHoldsAtPowerOn : Prop :=
  (∀ s : State, AtPowerOn s → Inv s) ∧ Inv State.reset

/-- Every step keeps the invariant, from every state that has it; and so does a power cycle. -/
def Obligations.EveryStepKeepsTheInvariant : Prop :=
  (∀ s t : State, Inv s → step s = .next t → Inv t) ∧ ∀ s : State, Inv s → Inv s.powerCycle

/-- R39: in every state reached from power-on, (a) to (f) hold at the start of every tick. -/
def Obligations.ReachableTicksSatisfyTheInvariants : Prop :=
  ∀ s : State, Reachable s → s.phase = .run → TickInv s

/-- R174: from power-on no tick is a fault tick and the fault log stays empty. -/
def Obligations.FaultUnreachableFromPowerOn : Prop :=
  ∀ s : State, Reachable s → s.faultLog = [] ∧
    ∀ m o a r x : Bit, s.nextBranch ≠ .ok (.tickFault m o a r x)

/-- R190 (and I16): no rule reads a register before it is written. Two states that differ only in registers no rule may
read step to states that differ only so, with the same events: the reset values the model chose (assumption log entry
3) show nowhere. -/
def Obligations.UnwrittenRegistersAreNeverRead : Prop :=
  ∀ s s' t : State, SameForRules s s' → step s = .next t → ∃ t', step s' = .next t' ∧ SameForRules t t'

/-! ### Scripts and the pipeline's words -/

/-- R79: a line that does not match the phase is refused; one that does is one step with the line's sample, and a
POWERON line's bytes are in the store. How a line's sample and bytes are placed is the model's (assumption log entry
19). -/
def Obligations.ScriptLinesMatchThePhase : Prop :=
  (∀ (l : ScriptLine) (s : State), s.phase ≠ linePhase l → runLine l s = .refused .scriptMismatch) ∧
  (∀ (l : ScriptLine) (s : State), s.phase = linePhase l → s.cfg.wf = true →
    runLine l s = step (placeLine l s) ∧ ∃ t, runLine l s = .next t) ∧
  (∀ (sel rst : Bit) (s : State), s.rstOe = 0#1 → (placeLine (.tick sel rst) s).drawPins.sample = (sel, rst)) ∧
  (∀ (sel : Bit) (s : State), (placeLine (.poll sel) s).drawPins.sample.1 = sel) ∧
  ∀ (idx theme : Byte) (sel : Bit) (s : State), s.cfg.wf = true → Memory.wf s.store →
    (placeLine (.powerOn idx theme sel) s).drawPins.sample.1 = sel ∧
    (placeLine (.powerOn idx theme sel) s).memRead .idx = idx ∧
    (placeLine (.powerOn idx theme sel) s).memRead .theme = theme

/-- R80: the expansions of the pseudo-steps. -/
def Obligations.PseudoStepsExpand : Prop :=
  ∀ (n : Nat) (l : PseudoLine),
    expand (.hold n) = List.replicate n (.tick 1#1 0#1) ∧ expand (.quiet n) = List.replicate n (.tick 0#1 0#1) ∧
    expand (.ext n) = List.replicate n (.tick 0#1 1#1) ∧ expand .tap = [.tick 1#1 0#1, .tick 0#1 0#1] ∧
    expand (.replicate n l) = (List.replicate n (expand l)).flatten

/-- A word placed for the pipeline is the word the next step forms: every well-formed instruction but RUN_TICK itself
is then the step's branch, and the step answers. The placing is the model's own convention (assumption log entry 13). -/
def Obligations.PlacedWordIsTheNextBranch : Prop :=
  ∀ (s : State) (i : Instr), s.cfg.wf = true → i.wellFormed = true → (∀ b, i ≠ .runTick b) →
    (s.placeWord (some (encode i))).nextBranch = .ok i ∧ ∃ t, step (s.placeWord (some (encode i))) = .next t
end

