-- ==== Sys2Proof/Laws/Decode.lean ====
section
/-! SUPPORT. Laws/Decode.lean: the tables do not overlap, and what the decoder and the word formation can give. -/

namespace Sys2Proof

/-- No word matches two rows of the phase word's table. -/
theorem qTable_disjoint : ∀ x : BitVec 3, qTable.countP (fun r => r.matches x) ≤ 1 := by decide

/-- No word matches two rows of the tick word's table (R75). -/
theorem wTable_disjoint : ∀ x : BitVec 6, wTable.countP (fun r => r.matches x) ≤ 1 := by decide

/-- A one-bit value is 0 or 1. -/
theorem bit_cases (b : Bit) : b = 0#1 ∨ b = 1#1 := by revert b; decide

/-- A two-bit value is one of four. -/
theorem two_bit_cases (b : BitVec 2) : b = 0#2 ∨ b = 1#2 ∨ b = 2#2 ∨ b = 3#2 := by revert b; decide

end Sys2Proof

namespace Sys2Proof.Machine

/-- The increment of ButtonTimer passes a threshold exactly when it is greater as a number (R73). -/
theorem exceeds_eq_one (b : Timer) (n : Nat) : exceeds b n = 1#1 ↔ n < (b + 1#8).toNat := by
  unfold exceeds bitOf
  generalize (b + 1#8).toNat = k
  by_cases h : n < k <;> simp [h]

/-- The increment of ButtonTimer does not pass a threshold exactly when it is at most the threshold (R73). -/
theorem exceeds_eq_zero (b : Timer) (n : Nat) : exceeds b n = 0#1 ↔ (b + 1#8).toNat ≤ n := by
  unfold exceeds bitOf
  generalize (b + 1#8).toNat = k
  by_cases h : n < k
  · simp [h]
  · simp [h, Nat.not_lt.1 h]

/-- The phase word's branch, by PHASE and the sample (R70, R71): there is always exactly one. -/
theorem State.phaseBranch_eq (s : State) :
    s.phaseBranch = .ok (match s.phase with
      | .powerOn => if s.sample.1 = 0#1 then .bootPlain else .bootTheme
      | .waitRelease => if s.sample.1 = 0#1 then .waitDone else .waitHold
      | .run => .runTick s.sample.1) := by
  unfold State.phaseBranch State.qWord
  generalize s.sample.1 = sel
  rcases bit_cases sel with rfl | rfl <;> cases s.phase <;> rfl

/-- What W selects (R72 to R75), in the terms of the state and the sample: there is always exactly one branch. The one
lemma to take a tick apart with. -/
theorem State.tickBranch_eq (s : State) :
    s.tickBranch = .ok (
      if s.mode = idleMode then
        if s.sample.2 = 1#1 then .idleExtreset s.ob
        else if s.sample.1 = 1#1 then
          if s.cfg.tLong < (s.bTimer + 1#8).toNat then .idleLongpress s.ob else .idleHold s.ob
        else .idleRest s.ob
      else if s.mode = selectMode then
        if anyBit s.sample.1 s.sample.2 = 1#1 then
          if s.ob = 1#1 then .selAdvance s.sample.2 else .selHeld s.sample.2
        else if s.cfg.tCommit < (s.bTimer + 1#8).toNat then
          if s.ob = 1#1 then .selCommit else .selArmCommit
        else if s.ob = 1#1 then .selQuiet else .selArm
      else .tickFault (wordBit 0 s.mode) s.ob (anyBit s.sample.1 s.sample.2) s.sample.2 0#1) := by
  unfold State.tickBranch State.wWord expBit
  simp only [← exceeds_eq_one]
  generalize s.sample = smp
  obtain ⟨sel, rst⟩ := smp
  generalize s.ob = ob
  generalize s.mode = mode
  generalize exceeds s.bTimer s.cfg.tLong = x
  generalize exceeds s.bTimer s.cfg.tCommit = y
  clear s
  revert mode ob sel rst x y
  decide

/-- The indicator update touches no field of W (R72, R100). -/
theorem State.tickBranch_driveLed (s : State) (b : Bit) : (s.driveLed b).tickBranch = s.tickBranch := rfl

/-- The phase of a code is the phase coded so (R20). -/
theorem phaseOfCode_code (p : Phase) : phaseOfCode p.code = some p := by cases p <;> rfl

/-- With legal parameters ButtonTimer can be placed so that EXP comes out as wanted, unless the mode or the sample
already makes it 0 (R73). -/
theorem expBit_timerFor (c : Config) (hc : c.wf = true) (mode : ModeCode) (b : Timer) (sel rst wanted : Bit)
    (h : wanted = 0#1 ∨ mode = idleMode ∧ sel = 1#1 ∧ rst = 0#1 ∨ mode = selectMode ∧ sel = 0#1 ∧ rst = 0#1) :
    expBit c mode (timerFor c mode b sel rst wanted) sel rst = wanted := by
  simp only [Config.wf, Bool.and_eq_true, decide_eq_true_eq] at hc
  have hw : ∀ n, exceeds 255#8 n = 0#1 := fun n => by rw [exceeds_eq_zero]; simp
  have ht : ∀ n, n ≤ 254 → exceeds (BitVec.ofNat 8 n) n = 1#1 := fun n hn => by
    rw [exceeds_eq_one, BitVec.toNat_add, BitVec.toNat_ofNat]; simp; omega
  unfold timerFor
  split
  · assumption
  · split
    · rename_i h0
      subst h0
      unfold expBit
      simp [hw]
    · rename_i h0
      have h1 : wanted = 1#1 := (bit_cases wanted).resolve_left h0
      subst h1
      rcases h with h | ⟨rfl, rfl, rfl⟩ | ⟨rfl, rfl, rfl⟩
      · exact absurd h h0
      · simp [expBit, ht _ hc.1.1.1.1.1]
      · simp [expBit, ht _ hc.1.1.1.1.2]

end Sys2Proof.Machine
end

