-- ==== Sys2Proof/Laws/State.lean ====
section
/-! SUPPORT. Laws/State.lean: one lemma per field per update of the state (Machine/Ops.lean), so that no proof unfolds
a record update. -/

namespace Sys2Proof.Machine

/-! ### `emit` -/

@[simp] theorem State.emit_cfg (e : Event) (s : State) : (s.emit e).cfg = s.cfg := rfl
@[simp] theorem State.emit_phase (e : Event) (s : State) : (s.emit e).phase = s.phase := rfl
@[simp] theorem State.emit_mode (e : Event) (s : State) : (s.emit e).mode = s.mode := rfl
@[simp] theorem State.emit_bTimer (e : Event) (s : State) : (s.emit e).bTimer = s.bTimer := rfl
@[simp] theorem State.emit_ob (e : Event) (s : State) : (s.emit e).ob = s.ob := rfl
@[simp] theorem State.emit_ign (e : Event) (s : State) : (s.emit e).ign = s.ign := rfl
@[simp] theorem State.emit_idx (e : Event) (s : State) : (s.emit e).idx = s.idx := rfl
@[simp] theorem State.emit_theme (e : Event) (s : State) : (s.emit e).theme = s.theme := rfl
@[simp] theorem State.emit_lastSaved (e : Event) (s : State) : (s.emit e).lastSaved = s.lastSaved := rfl
@[simp] theorem State.emit_addrOut (e : Event) (s : State) : (s.emit e).addrOut = s.addrOut := rfl
@[simp] theorem State.emit_ledOut (e : Event) (s : State) : (s.emit e).ledOut = s.ledOut := rfl
@[simp] theorem State.emit_rstOe (e : Event) (s : State) : (s.emit e).rstOe = s.rstOe := rfl
@[simp] theorem State.emit_selN (e : Event) (s : State) : (s.emit e).selN = s.selN := rfl
@[simp] theorem State.emit_rstOutside (e : Event) (s : State) : (s.emit e).rstOutside = s.rstOutside := rfl
@[simp] theorem State.emit_store (e : Event) (s : State) : (s.emit e).store = s.store := rfl
@[simp] theorem State.emit_faultLog (e : Event) (s : State) : (s.emit e).faultLog = s.faultLog := rfl
@[simp] theorem State.emit_trace (e : Event) (s : State) : (s.emit e).trace = s.trace ++ [e] := rfl
@[simp] theorem State.emit_stimulus (e : Event) (s : State) : (s.emit e).stimulus = s.stimulus := rfl
@[simp] theorem State.emit_draws (e : Event) (s : State) : (s.emit e).draws = s.draws := rfl

/-! ### `sleep` -/

@[simp] theorem State.sleep_cfg (ms : Nat) (s : State) : (s.sleep ms).cfg = s.cfg := rfl
@[simp] theorem State.sleep_phase (ms : Nat) (s : State) : (s.sleep ms).phase = s.phase := rfl
@[simp] theorem State.sleep_mode (ms : Nat) (s : State) : (s.sleep ms).mode = s.mode := rfl
@[simp] theorem State.sleep_bTimer (ms : Nat) (s : State) : (s.sleep ms).bTimer = s.bTimer := rfl
@[simp] theorem State.sleep_ob (ms : Nat) (s : State) : (s.sleep ms).ob = s.ob := rfl
@[simp] theorem State.sleep_ign (ms : Nat) (s : State) : (s.sleep ms).ign = s.ign := rfl
@[simp] theorem State.sleep_idx (ms : Nat) (s : State) : (s.sleep ms).idx = s.idx := rfl
@[simp] theorem State.sleep_theme (ms : Nat) (s : State) : (s.sleep ms).theme = s.theme := rfl
@[simp] theorem State.sleep_lastSaved (ms : Nat) (s : State) : (s.sleep ms).lastSaved = s.lastSaved := rfl
@[simp] theorem State.sleep_addrOut (ms : Nat) (s : State) : (s.sleep ms).addrOut = s.addrOut := rfl
@[simp] theorem State.sleep_ledOut (ms : Nat) (s : State) : (s.sleep ms).ledOut = s.ledOut := rfl
@[simp] theorem State.sleep_rstOe (ms : Nat) (s : State) : (s.sleep ms).rstOe = s.rstOe := rfl
@[simp] theorem State.sleep_selN (ms : Nat) (s : State) : (s.sleep ms).selN = s.selN := rfl
@[simp] theorem State.sleep_rstOutside (ms : Nat) (s : State) : (s.sleep ms).rstOutside = s.rstOutside := rfl
@[simp] theorem State.sleep_store (ms : Nat) (s : State) : (s.sleep ms).store = s.store := rfl
@[simp] theorem State.sleep_faultLog (ms : Nat) (s : State) : (s.sleep ms).faultLog = s.faultLog := rfl
@[simp] theorem State.sleep_trace (ms : Nat) (s : State) : (s.sleep ms).trace = s.trace ++ [.evSleep ms] := rfl
@[simp] theorem State.sleep_stimulus (ms : Nat) (s : State) : (s.sleep ms).stimulus = s.stimulus := rfl
@[simp] theorem State.sleep_draws (ms : Nat) (s : State) : (s.sleep ms).draws = s.draws := rfl

/-! ### `memWrite` -/

@[simp] theorem State.memWrite_cfg (k : Slot) (v : Byte) (s : State) : (s.memWrite k v).cfg = s.cfg := rfl
@[simp] theorem State.memWrite_phase (k : Slot) (v : Byte) (s : State) : (s.memWrite k v).phase = s.phase := rfl
@[simp] theorem State.memWrite_mode (k : Slot) (v : Byte) (s : State) : (s.memWrite k v).mode = s.mode := rfl
@[simp] theorem State.memWrite_bTimer (k : Slot) (v : Byte) (s : State) : (s.memWrite k v).bTimer = s.bTimer := rfl
@[simp] theorem State.memWrite_ob (k : Slot) (v : Byte) (s : State) : (s.memWrite k v).ob = s.ob := rfl
@[simp] theorem State.memWrite_ign (k : Slot) (v : Byte) (s : State) : (s.memWrite k v).ign = s.ign := rfl
@[simp] theorem State.memWrite_idx (k : Slot) (v : Byte) (s : State) : (s.memWrite k v).idx = s.idx := rfl
@[simp] theorem State.memWrite_theme (k : Slot) (v : Byte) (s : State) : (s.memWrite k v).theme = s.theme := rfl
@[simp] theorem State.memWrite_lastSaved (k : Slot) (v : Byte) (s : State) : (s.memWrite k v).lastSaved = s.lastSaved := rfl
@[simp] theorem State.memWrite_addrOut (k : Slot) (v : Byte) (s : State) : (s.memWrite k v).addrOut = s.addrOut := rfl
@[simp] theorem State.memWrite_ledOut (k : Slot) (v : Byte) (s : State) : (s.memWrite k v).ledOut = s.ledOut := rfl
@[simp] theorem State.memWrite_rstOe (k : Slot) (v : Byte) (s : State) : (s.memWrite k v).rstOe = s.rstOe := rfl
@[simp] theorem State.memWrite_selN (k : Slot) (v : Byte) (s : State) : (s.memWrite k v).selN = s.selN := rfl
@[simp] theorem State.memWrite_rstOutside (k : Slot) (v : Byte) (s : State) : (s.memWrite k v).rstOutside = s.rstOutside := rfl
@[simp] theorem State.memWrite_store (k : Slot) (v : Byte) (s : State) : (s.memWrite k v).store = Memory.write s.store (k.addr s.cfg) v := rfl
@[simp] theorem State.memWrite_faultLog (k : Slot) (v : Byte) (s : State) : (s.memWrite k v).faultLog = s.faultLog := rfl
@[simp] theorem State.memWrite_trace (k : Slot) (v : Byte) (s : State) : (s.memWrite k v).trace = s.trace ++ [.evStoreWrite (k.addr s.cfg) v] := rfl
@[simp] theorem State.memWrite_stimulus (k : Slot) (v : Byte) (s : State) : (s.memWrite k v).stimulus = s.stimulus := rfl
@[simp] theorem State.memWrite_draws (k : Slot) (v : Byte) (s : State) : (s.memWrite k v).draws = s.draws := rfl

/-! ### `driveAddr` -/

@[simp] theorem State.driveAddr_cfg (v : Bank) (s : State) : (s.driveAddr v).cfg = s.cfg := rfl
@[simp] theorem State.driveAddr_phase (v : Bank) (s : State) : (s.driveAddr v).phase = s.phase := rfl
@[simp] theorem State.driveAddr_mode (v : Bank) (s : State) : (s.driveAddr v).mode = s.mode := rfl
@[simp] theorem State.driveAddr_bTimer (v : Bank) (s : State) : (s.driveAddr v).bTimer = s.bTimer := rfl
@[simp] theorem State.driveAddr_ob (v : Bank) (s : State) : (s.driveAddr v).ob = s.ob := rfl
@[simp] theorem State.driveAddr_ign (v : Bank) (s : State) : (s.driveAddr v).ign = s.ign := rfl
@[simp] theorem State.driveAddr_idx (v : Bank) (s : State) : (s.driveAddr v).idx = s.idx := rfl
@[simp] theorem State.driveAddr_theme (v : Bank) (s : State) : (s.driveAddr v).theme = s.theme := rfl
@[simp] theorem State.driveAddr_lastSaved (v : Bank) (s : State) : (s.driveAddr v).lastSaved = s.lastSaved := rfl
@[simp] theorem State.driveAddr_addrOut (v : Bank) (s : State) : (s.driveAddr v).addrOut = v := rfl
@[simp] theorem State.driveAddr_ledOut (v : Bank) (s : State) : (s.driveAddr v).ledOut = s.ledOut := rfl
@[simp] theorem State.driveAddr_rstOe (v : Bank) (s : State) : (s.driveAddr v).rstOe = s.rstOe := rfl
@[simp] theorem State.driveAddr_selN (v : Bank) (s : State) : (s.driveAddr v).selN = s.selN := rfl
@[simp] theorem State.driveAddr_rstOutside (v : Bank) (s : State) : (s.driveAddr v).rstOutside = s.rstOutside := rfl
@[simp] theorem State.driveAddr_store (v : Bank) (s : State) : (s.driveAddr v).store = s.store := rfl
@[simp] theorem State.driveAddr_faultLog (v : Bank) (s : State) : (s.driveAddr v).faultLog = s.faultLog := rfl
@[simp] theorem State.driveAddr_trace (v : Bank) (s : State) : (s.driveAddr v).trace = s.trace ++ [.evAddr v] := rfl
@[simp] theorem State.driveAddr_stimulus (v : Bank) (s : State) : (s.driveAddr v).stimulus = s.stimulus := rfl
@[simp] theorem State.driveAddr_draws (v : Bank) (s : State) : (s.driveAddr v).draws = s.draws := rfl

/-! ### `driveLed` -/

@[simp] theorem State.driveLed_cfg (b : Bit) (s : State) : (s.driveLed b).cfg = s.cfg := rfl
@[simp] theorem State.driveLed_phase (b : Bit) (s : State) : (s.driveLed b).phase = s.phase := rfl
@[simp] theorem State.driveLed_mode (b : Bit) (s : State) : (s.driveLed b).mode = s.mode := rfl
@[simp] theorem State.driveLed_bTimer (b : Bit) (s : State) : (s.driveLed b).bTimer = s.bTimer := rfl
@[simp] theorem State.driveLed_ob (b : Bit) (s : State) : (s.driveLed b).ob = s.ob := rfl
@[simp] theorem State.driveLed_ign (b : Bit) (s : State) : (s.driveLed b).ign = s.ign := rfl
@[simp] theorem State.driveLed_idx (b : Bit) (s : State) : (s.driveLed b).idx = s.idx := rfl
@[simp] theorem State.driveLed_theme (b : Bit) (s : State) : (s.driveLed b).theme = s.theme := rfl
@[simp] theorem State.driveLed_lastSaved (b : Bit) (s : State) : (s.driveLed b).lastSaved = s.lastSaved := rfl
@[simp] theorem State.driveLed_addrOut (b : Bit) (s : State) : (s.driveLed b).addrOut = s.addrOut := rfl
@[simp] theorem State.driveLed_ledOut (b : Bit) (s : State) : (s.driveLed b).ledOut = b := rfl
@[simp] theorem State.driveLed_rstOe (b : Bit) (s : State) : (s.driveLed b).rstOe = s.rstOe := rfl
@[simp] theorem State.driveLed_selN (b : Bit) (s : State) : (s.driveLed b).selN = s.selN := rfl
@[simp] theorem State.driveLed_rstOutside (b : Bit) (s : State) : (s.driveLed b).rstOutside = s.rstOutside := rfl
@[simp] theorem State.driveLed_store (b : Bit) (s : State) : (s.driveLed b).store = s.store := rfl
@[simp] theorem State.driveLed_faultLog (b : Bit) (s : State) : (s.driveLed b).faultLog = s.faultLog := rfl
@[simp] theorem State.driveLed_trace (b : Bit) (s : State) : (s.driveLed b).trace = s.trace ++ [.evLed b] := rfl
@[simp] theorem State.driveLed_stimulus (b : Bit) (s : State) : (s.driveLed b).stimulus = s.stimulus := rfl
@[simp] theorem State.driveLed_draws (b : Bit) (s : State) : (s.driveLed b).draws = s.draws := rfl

/-! ### `toggleLed` -/

@[simp] theorem State.toggleLed_cfg (s : State) : s.toggleLed.cfg = s.cfg := rfl
@[simp] theorem State.toggleLed_phase (s : State) : s.toggleLed.phase = s.phase := rfl
@[simp] theorem State.toggleLed_mode (s : State) : s.toggleLed.mode = s.mode := rfl
@[simp] theorem State.toggleLed_bTimer (s : State) : s.toggleLed.bTimer = s.bTimer := rfl
@[simp] theorem State.toggleLed_ob (s : State) : s.toggleLed.ob = s.ob := rfl
@[simp] theorem State.toggleLed_ign (s : State) : s.toggleLed.ign = s.ign := rfl
@[simp] theorem State.toggleLed_idx (s : State) : s.toggleLed.idx = s.idx := rfl
@[simp] theorem State.toggleLed_theme (s : State) : s.toggleLed.theme = s.theme := rfl
@[simp] theorem State.toggleLed_lastSaved (s : State) : s.toggleLed.lastSaved = s.lastSaved := rfl
@[simp] theorem State.toggleLed_addrOut (s : State) : s.toggleLed.addrOut = s.addrOut := rfl
@[simp] theorem State.toggleLed_ledOut (s : State) : s.toggleLed.ledOut = ~~~s.ledOut := rfl
@[simp] theorem State.toggleLed_rstOe (s : State) : s.toggleLed.rstOe = s.rstOe := rfl
@[simp] theorem State.toggleLed_selN (s : State) : s.toggleLed.selN = s.selN := rfl
@[simp] theorem State.toggleLed_rstOutside (s : State) : s.toggleLed.rstOutside = s.rstOutside := rfl
@[simp] theorem State.toggleLed_store (s : State) : s.toggleLed.store = s.store := rfl
@[simp] theorem State.toggleLed_faultLog (s : State) : s.toggleLed.faultLog = s.faultLog := rfl
@[simp] theorem State.toggleLed_trace (s : State) : s.toggleLed.trace = s.trace ++ [.evLed (~~~s.ledOut)] := rfl
@[simp] theorem State.toggleLed_stimulus (s : State) : s.toggleLed.stimulus = s.stimulus := rfl
@[simp] theorem State.toggleLed_draws (s : State) : s.toggleLed.draws = s.draws := rfl

/-! ### `driveRst` -/

@[simp] theorem State.driveRst_cfg (d : Bit) (s : State) : (s.driveRst d).cfg = s.cfg := rfl
@[simp] theorem State.driveRst_phase (d : Bit) (s : State) : (s.driveRst d).phase = s.phase := rfl
@[simp] theorem State.driveRst_mode (d : Bit) (s : State) : (s.driveRst d).mode = s.mode := rfl
@[simp] theorem State.driveRst_bTimer (d : Bit) (s : State) : (s.driveRst d).bTimer = s.bTimer := rfl
@[simp] theorem State.driveRst_ob (d : Bit) (s : State) : (s.driveRst d).ob = s.ob := rfl
@[simp] theorem State.driveRst_ign (d : Bit) (s : State) : (s.driveRst d).ign = s.ign := rfl
@[simp] theorem State.driveRst_idx (d : Bit) (s : State) : (s.driveRst d).idx = s.idx := rfl
@[simp] theorem State.driveRst_theme (d : Bit) (s : State) : (s.driveRst d).theme = s.theme := rfl
@[simp] theorem State.driveRst_lastSaved (d : Bit) (s : State) : (s.driveRst d).lastSaved = s.lastSaved := rfl
@[simp] theorem State.driveRst_addrOut (d : Bit) (s : State) : (s.driveRst d).addrOut = s.addrOut := rfl
@[simp] theorem State.driveRst_ledOut (d : Bit) (s : State) : (s.driveRst d).ledOut = s.ledOut := rfl
@[simp] theorem State.driveRst_rstOe (d : Bit) (s : State) : (s.driveRst d).rstOe = d := rfl
@[simp] theorem State.driveRst_selN (d : Bit) (s : State) : (s.driveRst d).selN = s.selN := rfl
@[simp] theorem State.driveRst_rstOutside (d : Bit) (s : State) : (s.driveRst d).rstOutside = s.rstOutside := rfl
@[simp] theorem State.driveRst_store (d : Bit) (s : State) : (s.driveRst d).store = s.store := rfl
@[simp] theorem State.driveRst_faultLog (d : Bit) (s : State) : (s.driveRst d).faultLog = s.faultLog := rfl
@[simp] theorem State.driveRst_trace (d : Bit) (s : State) : (s.driveRst d).trace = s.trace ++ [.evRst d] := rfl
@[simp] theorem State.driveRst_stimulus (d : Bit) (s : State) : (s.driveRst d).stimulus = s.stimulus := rfl
@[simp] theorem State.driveRst_draws (d : Bit) (s : State) : (s.driveRst d).draws = s.draws := rfl

/-! ### `raiseFaultMode` -/

@[simp] theorem State.raiseFaultMode_cfg (s : State) : s.raiseFaultMode.cfg = s.cfg := rfl
@[simp] theorem State.raiseFaultMode_phase (s : State) : s.raiseFaultMode.phase = s.phase := rfl
@[simp] theorem State.raiseFaultMode_mode (s : State) : s.raiseFaultMode.mode = s.mode := rfl
@[simp] theorem State.raiseFaultMode_bTimer (s : State) : s.raiseFaultMode.bTimer = s.bTimer := rfl
@[simp] theorem State.raiseFaultMode_ob (s : State) : s.raiseFaultMode.ob = s.ob := rfl
@[simp] theorem State.raiseFaultMode_ign (s : State) : s.raiseFaultMode.ign = s.ign := rfl
@[simp] theorem State.raiseFaultMode_idx (s : State) : s.raiseFaultMode.idx = s.idx := rfl
@[simp] theorem State.raiseFaultMode_theme (s : State) : s.raiseFaultMode.theme = s.theme := rfl
@[simp] theorem State.raiseFaultMode_lastSaved (s : State) : s.raiseFaultMode.lastSaved = s.lastSaved := rfl
@[simp] theorem State.raiseFaultMode_addrOut (s : State) : s.raiseFaultMode.addrOut = s.addrOut := rfl
@[simp] theorem State.raiseFaultMode_ledOut (s : State) : s.raiseFaultMode.ledOut = s.ledOut := rfl
@[simp] theorem State.raiseFaultMode_rstOe (s : State) : s.raiseFaultMode.rstOe = s.rstOe := rfl
@[simp] theorem State.raiseFaultMode_selN (s : State) : s.raiseFaultMode.selN = s.selN := rfl
@[simp] theorem State.raiseFaultMode_rstOutside (s : State) : s.raiseFaultMode.rstOutside = s.rstOutside := rfl
@[simp] theorem State.raiseFaultMode_store (s : State) : s.raiseFaultMode.store = s.store := rfl
@[simp] theorem State.raiseFaultMode_faultLog (s : State) : s.raiseFaultMode.faultLog = s.faultLog ++ [.faultMode s.mode] := rfl
@[simp] theorem State.raiseFaultMode_trace (s : State) : s.raiseFaultMode.trace = s.trace := rfl
@[simp] theorem State.raiseFaultMode_stimulus (s : State) : s.raiseFaultMode.stimulus = s.stimulus := rfl
@[simp] theorem State.raiseFaultMode_draws (s : State) : s.raiseFaultMode.draws = s.draws := rfl

/-! ### `drawPins` writes the line levels, the stimulus and the counter -/

@[simp] theorem State.drawPins_cfg (s : State) : s.drawPins.cfg = s.cfg := by
  unfold State.drawPins; split <;> rfl
@[simp] theorem State.drawPins_phase (s : State) : s.drawPins.phase = s.phase := by
  unfold State.drawPins; split <;> rfl
@[simp] theorem State.drawPins_mode (s : State) : s.drawPins.mode = s.mode := by
  unfold State.drawPins; split <;> rfl
@[simp] theorem State.drawPins_bTimer (s : State) : s.drawPins.bTimer = s.bTimer := by
  unfold State.drawPins; split <;> rfl
@[simp] theorem State.drawPins_ob (s : State) : s.drawPins.ob = s.ob := by
  unfold State.drawPins; split <;> rfl
@[simp] theorem State.drawPins_ign (s : State) : s.drawPins.ign = s.ign := by
  unfold State.drawPins; split <;> rfl
@[simp] theorem State.drawPins_idx (s : State) : s.drawPins.idx = s.idx := by
  unfold State.drawPins; split <;> rfl
@[simp] theorem State.drawPins_theme (s : State) : s.drawPins.theme = s.theme := by
  unfold State.drawPins; split <;> rfl
@[simp] theorem State.drawPins_lastSaved (s : State) : s.drawPins.lastSaved = s.lastSaved := by
  unfold State.drawPins; split <;> rfl
@[simp] theorem State.drawPins_addrOut (s : State) : s.drawPins.addrOut = s.addrOut := by
  unfold State.drawPins; split <;> rfl
@[simp] theorem State.drawPins_ledOut (s : State) : s.drawPins.ledOut = s.ledOut := by
  unfold State.drawPins; split <;> rfl
@[simp] theorem State.drawPins_rstOe (s : State) : s.drawPins.rstOe = s.rstOe := by
  unfold State.drawPins; split <;> rfl
@[simp] theorem State.drawPins_store (s : State) : s.drawPins.store = s.store := by
  unfold State.drawPins; split <;> rfl
@[simp] theorem State.drawPins_faultLog (s : State) : s.drawPins.faultLog = s.faultLog := by
  unfold State.drawPins; split <;> rfl
@[simp] theorem State.drawPins_trace (s : State) : s.drawPins.trace = s.trace := by
  unfold State.drawPins; split <;> rfl

/-- With a listed sample, the step's levels are the listed ones. -/
theorem State.drawPins_cons (s : State) (p : Pins) (rest : List Pins) (h : s.stimulus = p :: rest) :
    s.drawPins = { s with selN := p.selN, rstOutside := p.rstN, stimulus := rest } := by
  unfold State.drawPins; rw [h]

/-- With none listed, the step's levels are free ones. -/
theorem State.drawPins_nil (s : State) (h : s.stimulus = []) :
    s.drawPins = { s with
      selN := (Config.freePins s.draws).selN, rstOutside := (Config.freePins s.draws).rstN,
      draws := s.draws + 1 } := by
  unfold State.drawPins; rw [h]

/-- Once the reset line is released, RST_N is the outside's level (R34, R91). -/
theorem State.rstN_released (s : State) (h : s.rstOe = 0#1) : s.rstN = s.rstOutside := by
  simp [State.rstN, h]

/-- While the core pulls the reset line low, RST_N is 0 (R34, R91). -/
theorem State.rstN_driven (s : State) (h : s.rstOe = 1#1) : s.rstN = 0#1 := by
  simp [State.rstN, h]

end Sys2Proof.Machine
end

