-- ==== Sys2Proof/Laws/Memory.lean ====
section
/-! SUPPORT. Laws/Memory.lean: the laws of the store's canonical list (Machine/Ops.lean). -/

namespace Sys2Proof.Machine

/-- An address below every listed one is unlisted. -/
theorem Memory.read_of_lt (m : List Host.Cell) (a : Nat) (h : ∀ c ∈ m, a < c.1) :
    Memory.read m a = Config.erasedByte := by
  induction m with
  | nil => rfl
  | cons c rest ih =>
    obtain ⟨b, v⟩ := c
    have hb : a < b := h (b, v) (by simp)
    have hne : ¬ a = b := by omega
    simp only [Memory.read, hne, if_false]
    exact ih fun d hd => h d (by simp [hd])

/-- Reading another address than the written one gives what it gave before. -/
theorem Memory.read_write_of_ne (m : List Host.Cell) (a b : Nat) (v : Byte) (h : b ≠ a) :
    Memory.read (Memory.write m a v) b = Memory.read m b := by
  induction m with
  | nil =>
    unfold Memory.write
    split <;> simp [Memory.read, h]
  | cons c rest ih =>
    obtain ⟨x, w⟩ := c
    unfold Memory.write
    split
    · split <;> simp [Memory.read, h]
    · split
      · rename_i hx
        subst hx
        split <;> simp [Memory.read, h]
      · simp [Memory.read, ih]

/-- The addresses a write leaves listed are the written one and some of those listed before. -/
theorem Memory.mem_write (m : List Host.Cell) (a : Nat) (v : Byte) (c : Host.Cell) (h : c ∈ Memory.write m a v) :
    (c = (a, v) ∧ v ≠ Config.erasedByte) ∨ c ∈ m := by
  induction m with
  | nil =>
    unfold Memory.write at h
    split at h
    · simp at h
    · rename_i hv; simp at h; exact .inl ⟨h, hv⟩
  | cons d rest ih =>
    obtain ⟨b, x⟩ := d
    unfold Memory.write at h
    split at h
    · split at h
      · exact .inr h
      · rename_i hv
        rcases List.mem_cons.1 h with h | h
        · exact .inl ⟨h, hv⟩
        · exact .inr h
    · split at h
      · split at h
        · exact .inr (List.mem_cons_of_mem _ h)
        · rename_i hv
          rcases List.mem_cons.1 h with h | h
          · exact .inl ⟨h, hv⟩
          · exact .inr (List.mem_cons_of_mem _ h)
      · rcases List.mem_cons.1 h with h | h
        · exact .inr (by simp [h])
        · rcases ih h with h | h
          · exact .inl h
          · exact .inr (List.mem_cons_of_mem _ h)

/-- A write keeps the canonical form. -/
theorem Memory.wf_write (m : List Host.Cell) (a : Nat) (v : Byte) (h : Memory.wf m) : Memory.wf (Memory.write m a v) := by
  refine ⟨?_, fun c hc => ?_⟩
  · replace h := h.1
    induction m with
    | nil => unfold Memory.write; split <;> simp
    | cons d rest ih =>
      obtain ⟨b, x⟩ := d
      obtain ⟨hlow, hrest⟩ := List.pairwise_cons.1 h
      unfold Memory.write
      split
      · rename_i hab
        split
        · exact h
        · refine List.pairwise_cons.2 ⟨fun c hc => ?_, h⟩
          rcases List.mem_cons.1 hc with hc | hc
          · simpa [hc] using hab
          · exact Nat.lt_trans hab (hlow c hc)
      · split
        · rename_i hab
          split
          · exact hrest
          · exact List.pairwise_cons.2 ⟨fun c hc => by simpa [hab] using hlow c hc, hrest⟩
        · refine List.pairwise_cons.2 ⟨fun c hc => ?_, ih hrest⟩
          rcases Memory.mem_write rest a v c hc with ⟨hc, -⟩ | hc
          · simp only [hc]; omega
          · exact hlow c hc
  · rcases Memory.mem_write m a v c hc with ⟨hc, hv⟩ | hc
    · simpa [hc] using hv
    · exact h.2 c hc

/-- In a canonical store, reading the written address gives the written byte. -/
theorem Memory.read_write_same (m : List Host.Cell) (a : Nat) (v : Byte) (h : Memory.wf m) :
    Memory.read (Memory.write m a v) a = v := by
  replace h := h.1
  induction m with
  | nil =>
    unfold Memory.write
    split
    · rename_i hv; simp [Memory.read, hv]
    · simp [Memory.read]
  | cons d rest ih =>
    obtain ⟨b, x⟩ := d
    obtain ⟨hlow, hrest⟩ := List.pairwise_cons.1 h
    unfold Memory.write
    split
    · rename_i hab
      split
      · rename_i hv
        rw [hv]
        refine Memory.read_of_lt _ _ fun c hc => ?_
        rcases List.mem_cons.1 hc with hc | hc
        · simpa [hc] using hab
        · exact Nat.lt_trans hab (hlow c hc)
      · simp [Memory.read]
    · split
      · rename_i hab
        split
        · rename_i hv
          rw [hv]
          exact Memory.read_of_lt _ _ fun c hc => by simpa [hab] using hlow c hc
        · simp [Memory.read]
      · rename_i hne
        simp only [Memory.read, hne, if_false]
        exact ih hrest

/-- The store at reset is canonical. -/
theorem State.reset_store_wf : Memory.wf State.reset.store := by
  simp [State.reset, State.powerOn, Memory.wf]

/-- `MemWrite` keeps the canonical form. -/
theorem State.memWrite_wf (s : State) (k : Slot) (v : Byte) (h : Memory.wf s.store) :
    Memory.wf (s.memWrite k v).store := by
  simpa using Memory.wf_write s.store (k.addr s.cfg) v h

/-- Reading the written slot gives the written byte. -/
theorem State.memRead_memWrite_same (s : State) (k : Slot) (v : Byte) (h : Memory.wf s.store) :
    (s.memWrite k v).memRead k = v := by
  simpa [State.memRead] using Memory.read_write_same s.store (k.addr s.cfg) v h

/-- With legal parameters the two slots have distinct addresses, so a write to one leaves the other (R135). -/
theorem State.memRead_memWrite_other (s : State) (k l : Slot) (v : Byte) (hc : s.cfg.wf = true) (hkl : l ≠ k) :
    (s.memWrite k v).memRead l = s.memRead l := by
  have hs : s.cfg.slotIdx ≠ s.cfg.slotTheme := by
    simp only [Config.wf, Bool.and_eq_true, decide_eq_true_eq] at hc
    exact hc.2
  have ha : l.addr s.cfg ≠ k.addr s.cfg := by
    cases k <;> cases l <;> simp_all [Slot.addr, Ne.symm]
  simpa [State.memRead] using Memory.read_write_of_ne s.store (k.addr s.cfg) (l.addr s.cfg) v ha

end Sys2Proof.Machine
end

