-- ==== Sys2Proof/Laws/Ops.lean ====
section
/-! SUPPORT. Laws/Ops.lean: for each shared procedure, one lemma that says all it does, with its events in the terms of
Safety.lean; and the laws of the readings of event lists. -/

namespace Sys2Proof.Machine

/-! ### Readings of event lists -/

theorem duration_append (a b : List Event) : duration (a ++ b) = duration a + duration b := by
  induction a with
  | nil => simp [duration]
  | cons e rest ih => simp [duration, ih]; omega

theorem rstDrives_append (a b : List Event) : rstDrives (a ++ b) = rstDrives a ++ rstDrives b := by
  induction a with
  | nil => rfl
  | cons e rest ih => cases e <;> simp [rstDrives, ih]

theorem storeWrites_append (a b : List Event) : storeWrites (a ++ b) = storeWrites a ++ storeWrites b := by
  induction a with
  | nil => rfl
  | cons e rest ih => cases e <;> simp [storeWrites, ih]

theorem pulses_append (a b : List Event) : pulses (a ++ b) = pulses a + pulses b := by
  simp [pulses, rstDrives_append]

theorem blinkEvents_duration (ms n : Nat) (l : Bit) : duration (blinkEvents ms n l) = n * ms := by
  induction n generalizing l with
  | zero => simp [blinkEvents, duration]
  | succ n ih => simp [blinkEvents, duration, Event.ms, ih, Nat.succ_mul]; omega

theorem blinkEvents_rstDrives (ms n : Nat) (l : Bit) : rstDrives (blinkEvents ms n l) = [] := by
  induction n generalizing l with
  | zero => rfl
  | succ n ih => simp [blinkEvents, rstDrives, ih]

theorem blinkEvents_storeWrites (ms n : Nat) (l : Bit) : storeWrites (blinkEvents ms n l) = [] := by
  induction n generalizing l with
  | zero => rfl
  | succ n ih => simp [blinkEvents, storeWrites, ih]

/-! ### Procedures -/

/-- `SetIndex` (R130): the address outputs and two events. -/
theorem setIndex_eq (i : Bank) (s : State) :
    setIndex i s = { s with addrOut := i, trace := s.trace ++ [.evAddr i, .evSleep s.cfg.tSettleMs] } := by
  simp [setIndex, State.driveAddr, State.sleep, State.emit]

/-- `CommitIndex` (R131): a write and the shadow, or nothing. -/
theorem commitIndex_eq (i : Bank) (s : State) :
    commitIndex i s = { s with
      store := if i ≠ s.lastSaved then Memory.write s.store s.cfg.slotIdx (zext8 i) else s.store
      lastSaved := i
      trace := s.trace ++ if i ≠ s.lastSaved then [.evStoreWrite s.cfg.slotIdx (zext8 i)] else [] } := by
  unfold commitIndex
  split
  · simp [State.memWrite, State.emit, Slot.addr]
  · rename_i h
    have h : i = s.lastSaved := not_not.1 h
    subst h
    simp

/-- `LoadStore` (R132): three registers from the two slots, silently. -/
theorem loadStore_eq (s : State) :
    loadStore s = { s with
      idx := indexOfByte (s.memRead .idx), lastSaved := indexOfByte (s.memRead .idx),
      theme := themeOfByte (s.memRead .theme) } := rfl

/-- `ThemeToggle` (R133): the inverted theme and its write. -/
theorem themeToggle_eq (s : State) :
    themeToggle s = { s with
      theme := ~~~s.theme
      store := Memory.write s.store s.cfg.slotTheme (zext8 (~~~s.theme))
      trace := s.trace ++ [.evStoreWrite s.cfg.slotTheme (zext8 (~~~s.theme))] } := rfl

/-- A blink of `n` toggles (R159, R160): the level flips when `n` is odd. -/
theorem blink_eq (ms n : Nat) (s : State) :
    blink ms n s = { s with
      ledOut := if n % 2 = 0 then s.ledOut else ~~~s.ledOut
      trace := s.trace ++ blinkEvents ms n s.ledOut } := by
  induction n generalizing s with
  | zero => simp [blink, blinkEvents]
  | succ n ih =>
    rw [blink, ih]
    have hpar : ((n + 1) % 2 = 0) ↔ ¬(n % 2 = 0) := by omega
    by_cases h : n % 2 = 0 <;>
      simp [h, hpar, blinkEvents, State.toggleLed, State.driveLed, State.sleep, State.emit]

/-- `FeedbackBlink` with a legal configuration (R159): the level ends at its entry value. -/
theorem feedbackBlink_eq (s : State) (h : s.cfg.fbToggles % 2 = 0) :
    feedbackBlink s = { s with trace := s.trace ++ feedbackEvents s.cfg s.ledOut } := by
  simp [feedbackBlink, blink_eq, h, feedbackEvents]

/-- `SelfTest` (R160): the level ends at its entry value. -/
theorem selfTest_eq (s : State) :
    selfTest s = { s with trace := s.trace ++ selfTestEvents s.cfg s.ledOut } := by
  simp [selfTest, blink_eq, selfTestEvents]

/-- `PulseReset` (R145): the line ends released and the level at its entry value. -/
theorem pulseReset_eq (s : State) :
    pulseReset s = { s with rstOe := 0#1, trace := s.trace ++ pulseEvents s.cfg s.ledOut } := by
  simp [pulseReset, pulseEvents, State.driveRst, State.toggleLed, State.driveLed, State.sleep, State.emit]

/-- `EnterSelect` with a legal configuration (R101). -/
theorem enterSelect_eq (ign : Bit) (s : State) (h : s.cfg.fbToggles % 2 = 0) :
    enterSelect ign s = { s with
      mode := selectMode, bTimer := 0#8, ob := 0#1, ign := ign,
      trace := s.trace ++ feedbackEvents s.cfg s.ledOut } := by
  simp [enterSelect, feedbackBlink_eq, h]

/-- `Commit` (R112). -/
theorem commit_eq (s : State) :
    commit s = { s with
      mode := idleMode
      bTimer := 0#8
      rstOe := if s.ign = 0#1 then 0#1 else s.rstOe
      store := if s.idx ≠ s.lastSaved then Memory.write s.store s.cfg.slotIdx (zext8 s.idx) else s.store
      lastSaved := s.idx
      trace := s.trace ++ commitEvents s } := by
  unfold commit commitEvents
  by_cases h : s.ign = 0#1 <;> simp [h, pulseReset_eq, commitIndex_eq]

/-- `BootPrefix` (R163). -/
theorem bootPrefix_eq (s : State) :
    bootPrefix s = { s with
      rstOe := 0#1
      ledOut := 0#1
      idx := indexOfByte (s.memRead .idx)
      lastSaved := indexOfByte (s.memRead .idx)
      theme := themeOfByte (s.memRead .theme)
      addrOut := indexOfByte (s.memRead .idx)
      trace := s.trace ++ prefixEvents s.cfg (indexOfByte (s.memRead .idx)) } := by
  simp [bootPrefix, setIndex_eq, loadStore_eq, prefixEvents, State.driveRst, State.driveLed, State.emit,
    State.memRead]

/-- `BootSuffix` (R164). -/
theorem bootSuffix_eq (s : State) :
    bootSuffix s = { s with
      phase := .run, mode := idleMode, bTimer := 0#8, ob := 0#1, ign := 0#1, rstOe := 0#1,
      trace := s.trace ++ suffixEvents s.cfg s.ledOut } := by
  simp [bootSuffix, pulseReset_eq, selfTest_eq, State.sleep, State.emit, suffixEvents]

/-! ### The tick's own parts -/

/-- The indicator update in a valid mode (R100). -/
theorem tickIndicator_valid (s : State) (h : s.mode = idleMode ∨ s.mode = selectMode) :
    tickIndicator s = { s with
      ledOut := s.indicatorNow, trace := s.trace ++ [.evLed s.indicatorNow] } := by
  rcases h with h | h <;>
    simp [tickIndicator, h, validMode, idleMode, selectMode, State.driveLed, State.emit, State.indicatorNow]

/-- In an invalid mode the update is skipped (R100, D16). -/
theorem tickIndicator_invalid (s : State) (h : s.mode = 0b10#2 ∨ s.mode = 0b11#2) : tickIndicator s = s := by
  rcases h with h | h <;> simp [tickIndicator, h, validMode]

/-- The base sleep (R100). -/
theorem tickClose_eq (s : State) : tickClose s = { s with trace := s.trace ++ [.evSleep s.cfg.tTickMs] } := rfl

/-- MODE outside Idle and Select is one of the two invalid codes (R21). -/
theorem invalidMode_iff (m : ModeCode) :
    (m ≠ idleMode ∧ m ≠ selectMode) ↔ (m = 0b10#2 ∨ m = 0b11#2) := by revert m; decide

/-- In RUN the next branch is W's at the drawn levels (R71, R75). -/
theorem State.nextBranch_run (s : State) (h : s.phase = .run) : s.nextBranch = s.drawPins.tickBranch := by
  unfold State.nextBranch
  rw [State.phaseBranch_eq]
  simp [h]

/-- In the boot the next branch is Q's, one of the four boot branches (R71). -/
theorem State.nextBranch_boot (s : State) (h : s.phase ≠ .run) : s.nextBranch = s.drawPins.phaseBranch := by
  unfold State.nextBranch
  rw [State.phaseBranch_eq]
  cases hp : s.phase <;> rcases bit_cases s.drawPins.sample.1 with hb | hb <;> simp_all

/-! ### The step -/

/-- An outcome carried on is a next state exactly when the outcome is one. -/
theorem thenDo_next (o : Host.Outcome State Fault Refusal) (f : State → State) (t : State) :
    thenDo o f = .next t ↔ ∃ u, o = .next u ∧ t = f u := by
  cases o <;> simp [thenDo, eq_comm]

/-- In a tick, W's branch runs as `exec` runs it: the tick's own dispatch adds nothing. -/
theorem runBranch_eq_exec (u s : State) (i : Instr) (h : u.tickBranch = .ok i) : runBranch i s = exec i s := by
  rw [State.tickBranch_eq] at h
  injection h with h
  subst h
  (repeat' split) <;> rfl

/-- RUN_TICK is the indicator update, W's branch and the base sleep, and it never ends otherwise than its branch
(R100). -/
theorem execRunTick_eq (sel : Bit) (s : State) (i : Instr) (h : s.tickBranch = .ok i) :
    exec (.runTick sel) s = thenDo (exec i (tickIndicator s)) tickClose := by
  have hw : (tickIndicator s).tickBranch = .ok i := by
    unfold tickIndicator
    split <;> simpa [State.tickBranch_driveLed] using h
  show execRunTick sel s = _
  unfold execRunTick
  simp only [hw, runBranch_eq_exec s _ i h]

/-- What one step does (R7, R40): with legal parameters it runs the branch that Q selects at the levels drawn for the
step, and it gives a next state only so. -/
theorem step_eq (s : State) (h : s.cfg.wf = true) :
    ∃ i, s.drawPins.phaseBranch = .ok i ∧ step s = exec i s.drawPins := by
  refine ⟨_, s.drawPins.phaseBranch_eq, ?_⟩
  unfold step
  rw [if_pos h, s.drawPins.phaseBranch_eq]

/-- A step with parameters outside R6's ranges is refused (U4). -/
theorem step_badConfig (s : State) (h : s.cfg.wf = false) : step s = .refused .badConfig := by
  simp [step, h]

/-- If a step answers, its parameters are legal and the answer is its branch's. -/
theorem step_next (s t : State) (h : step s = .next t) :
    s.cfg.wf = true ∧ ∃ i, s.drawPins.phaseBranch = .ok i ∧ exec i s.drawPins = .next t := by
  cases hc : s.cfg.wf with
  | false => rw [step_badConfig s hc] at h; cases h
  | true =>
    obtain ⟨i, hi, hs⟩ := step_eq s hc
    exact ⟨rfl, i, hi, hs ▸ h⟩

/-- One step and the rest of a run. -/
theorem runSteps_succ (k : Nat) (s t : State) (h : step s = .next t) : runSteps (k + 1) s = runSteps k t := by
  simp [runSteps, h]

/-- A run of one step is the step. -/
theorem runSteps_one (s : State) : runSteps 1 s = step s := by
  cases h : step s <;> simp [runSteps, h]

/-- A run in two parts. -/
theorem runSteps_add (m k : Nat) (s t : State) (h : runSteps m s = .next t) :
    runSteps (m + k) s = runSteps k t := by
  induction m generalizing s with
  | zero => cases h; simp
  | succ m ih =>
    rw [Nat.add_right_comm]
    cases hs : step s with
    | next u => rw [runSteps_succ _ _ _ hs] at h ⊢; exact ih _ h
    | fault r => simp [runSteps, hs] at h
    | refused r => simp [runSteps, hs] at h

/-- `runSteps` is the host's run of the machine. -/
theorem runSteps_eq_core_run (k : Nat) (s : Sys2Proof.core.State) : Sys2Proof.core.run k s = runSteps k s := by
  induction k generalizing s with
  | zero => rfl
  | succ k ih =>
    rw [Host.Core.run.eq_2 Sys2Proof.core s k]
    cases hs : Sys2Proof.core.step s with
    | next t =>
      have hc : step s = .next t := hs
      simp only [runSteps, hc]
      exact ih t
    | fault r =>
      have hc : step s = .fault r := hs
      simp only [runSteps, hc]
      rfl
    | refused r =>
      have hc : step s = .refused r := hs
      simp only [runSteps, hc]
      rfl

/-- In RUN, a step is RUN_TICK in the state with the step's levels. -/
theorem step_of_run (s : State) (hc : s.cfg.wf = true) (hp : s.phase = .run) :
    step s = exec (.runTick s.drawPins.sample.1) s.drawPins := by
  obtain ⟨i, hi, h⟩ := step_eq s hc
  rw [State.phaseBranch_eq] at hi
  simp only [State.drawPins_phase, hp] at hi
  injection hi with hi
  exact hi ▸ h

/-- With a listed sample and the reset line released, the step's sample is the inverted listed levels. -/
theorem sample_of_stimulus (s : State) (p : Pins) (rest : List Pins) (h : s.stimulus = p :: rest)
    (ho : s.rstOe = 0#1) : s.drawPins.sample = (~~~p.selN, ~~~p.rstN) := by
  rw [State.drawPins_cons s p rest h]
  simp [State.sample, State.rstN, ho]

/-- ButtonTimer's increment as a number (R23). -/
theorem bTimer_succ_toNat (b : Timer) : (b + 1#8).toNat = (b.toNat + 1) % 256 := by
  simp [BitVec.toNat_add]

/-- The parts of R6's check that the rules use. -/
theorem configWf (c : Config) (h : c.wf = true) :
    c.tLong ≤ 254 ∧ c.tCommit ≤ 254 ∧ c.fbToggles % 2 = 0 ∧ 0 < c.tTickMs ∧ 0 < c.tPollMs ∧
      c.slotIdx ≠ c.slotTheme := by
  simpa [Config.wf, and_assoc] using h

end Sys2Proof.Machine
end

