-- ==== Sys2Proof/Laws/PerInstr.lean ====
section
/-! SUPPORT. Laws/PerInstr.lean: the family stated for every instruction, one lemma a constructor: its word stands in
the row of the decode tables that bears its mnemonic. -/

namespace Sys2Proof.Laws.EncodesInItsRow

/-- The word written for the instruction, with any operands, matches a row with the instruction's own mnemonic, in the
table of the word's format (R71, R75). -/
def Statement (i : Instr) : Prop :=
  match encode i with
  | .q x => ∃ r ∈ qTable, r.mnemonic = i.mnemonic ∧ r.matches x = true
  | .w x => ∃ r ∈ wTable, r.mnemonic = i.mnemonic ∧ r.matches x = true

theorem bootPlain : Statement .bootPlain := ⟨_, .head _, rfl, rfl⟩

theorem bootTheme : Statement .bootTheme := ⟨_, .tail _ (.head _), rfl, rfl⟩

theorem waitDone : Statement .waitDone := ⟨_, .tail _ (.tail _ (.head _)), rfl, rfl⟩

theorem waitHold : Statement .waitHold := ⟨_, .tail _ (.tail _ (.tail _ (.head _))), rfl, rfl⟩

theorem runTick (sel : Bit) : Statement (.runTick sel) :=
  ⟨_, .tail _ (.tail _ (.tail _ (.tail _ (.head _)))), rfl, by revert sel; decide⟩

theorem idleRest (ob : Bit) : Statement (.idleRest ob) := ⟨wTable[0], by simp [wTable], rfl, by revert ob; decide⟩

theorem idleHold (ob : Bit) : Statement (.idleHold ob) := ⟨wTable[1], by simp [wTable], rfl, by revert ob; decide⟩

theorem idleLongpress (ob : Bit) : Statement (.idleLongpress ob) :=
  ⟨wTable[2], by simp [wTable], rfl, by revert ob; decide⟩

theorem idleExtreset (ob : Bit) : Statement (.idleExtreset ob) :=
  ⟨wTable[3], by simp [wTable], rfl, by revert ob; decide⟩

theorem selArm : Statement .selArm := ⟨wTable[4], by simp [wTable], rfl, rfl⟩

theorem selArmCommit : Statement .selArmCommit := ⟨wTable[5], by simp [wTable], rfl, rfl⟩

theorem selHeld (rst : Bit) : Statement (.selHeld rst) := ⟨wTable[6], by simp [wTable], rfl, by revert rst; decide⟩

theorem selQuiet : Statement .selQuiet := ⟨wTable[7], by simp [wTable], rfl, rfl⟩

theorem selCommit : Statement .selCommit := ⟨wTable[8], by simp [wTable], rfl, rfl⟩

theorem selAdvance (rst : Bit) : Statement (.selAdvance rst) :=
  ⟨wTable[9], by simp [wTable], rfl, by revert rst; decide⟩

theorem tickFault (mode0 ob any rst exp : Bit) : Statement (.tickFault mode0 ob any rst exp) :=
  ⟨wTable[10], by simp [wTable], rfl, by revert mode0 ob any rst exp; decide⟩

end Sys2Proof.Laws.EncodesInItsRow
end

