-- ==== Sys2Proof/Tests/Slice0.lean ====
section
/-! SUPPORT. Tests/Slice0.lean: small tests, each on one word, one procedure or one step, with expected results from
spec/95_test_vectors.md or by hand from the rules named, and, for the statements with hypotheses, witnesses that meet
them. -/

namespace Sys2Proof.Tests

open Sys2Proof.Machine

/-! ### Helpers -/

/-- R6's defaults, with values for the two open parameters so that a test can compare them. -/
def cfg : Config := { faultAddr := 0b11#2, addrPowerOn := 0b10#2 }

/-- A configuration with short thresholds, so that a visit of Select takes few ticks. -/
def quick : Config := { tLong := 0, tCommit := 1, faultAddr := 0b11#2, addrPowerOn := 0b10#2 }

/-- Thresholds at the lower end of R6's range. -/
def least : Config := { tLong := 0, tCommit := 0, faultAddr := 0b11#2, addrPowerOn := 0b10#2 }

/-- The levels of a sample with the logical readings `sel` and `rst`. -/
def pins (sel rst : Bit) : Pins := ⟨~~~sel, ~~~rst⟩

/-- A RUN state with a mode and the next sample's readings; the other registers at zero. -/
def tickState (mode : ModeCode) (sel rst : Bit) : State :=
  { State.powerOn cfg [] with
    phase := .run
    mode := mode
    rstOe := 0#1
    addrOut := 0#2
    stimulus := [pins sel rst] }

/-- A power-on state with the two store bytes and the samples to come. -/
def bootState (c : Config) (i t : Byte) (samples : List Pins) : State :=
  { State.powerOn c (Memory.write (Memory.write [] c.slotIdx i) c.slotTheme t) with stimulus := samples }

/-- The next state of an outcome, if it is one. -/
def after (o : Host.Outcome State Fault Refusal) : Option State :=
  match o with
  | .next t => some t
  | .fault _ => none
  | .refused _ => none

/-- The refusal of an outcome, if it is one. -/
def refusal (o : Host.Outcome State Fault Refusal) : Option Refusal :=
  match o with
  | .next _ => none
  | .fault _ => none
  | .refused r => some r

/-! ### WellFormed: what the checks refuse -/

theorem test_default_config_legal : Config.default.wf = true := by decide

theorem test_long_threshold_at_most_254 :
    { cfg with tLong := 255 }.wf = false ∧ { cfg with tLong := 254 }.wf = true := by decide

theorem test_commit_threshold_at_most_254 :
    { cfg with tCommit := 255 }.wf = false ∧ { cfg with tCommit := 254 }.wf = true := by decide

theorem test_feedback_toggles_even : { cfg with fbToggles := 3 }.wf = false := by decide

theorem test_tick_delay_positive : { cfg with tTickMs := 0 }.wf = false := by decide

theorem test_poll_delay_positive : { cfg with tPollMs := 0 }.wf = false := by decide

theorem test_slots_distinct : { cfg with slotTheme := 0 }.wf = false := by decide

theorem test_fault_word_with_exp_ill_formed : (Instr.tickFault 0#1 0#1 1#1 0#1 1#1).wellFormed = false := by decide

theorem test_fault_word_with_rst_without_any_ill_formed :
    (Instr.tickFault 1#1 1#1 0#1 1#1 0#1).wellFormed = false := by decide

theorem test_bad_config_refused :
    refusal (step { State.powerOn { cfg with fbToggles := 3 } [] with draws := 0 }) = some .badConfig := by decide

/-! ### Decode: one word for every row, written out from V1.1 and V1.2 -/

theorem test_decode_boot_plain : decode (.q 0b000#3) = .ok .bootPlain := by decide

theorem test_decode_boot_theme : decode (.q 0b001#3) = .ok .bootTheme := by decide

theorem test_decode_wait_done : decode (.q 0b010#3) = .ok .waitDone := by decide

theorem test_decode_wait_hold : decode (.q 0b011#3) = .ok .waitHold := by decide

theorem test_decode_run_tick : decode (.q 0b101#3) = .ok (.runTick 1#1) := by decide

theorem test_decode_idle_rest : decode (.w 0b001000#6) = .ok (.idleRest 1#1) := by decide

theorem test_decode_idle_hold : decode (.w 0b000100#6) = .ok (.idleHold 0#1) := by decide

theorem test_decode_idle_longpress : decode (.w 0b001101#6) = .ok (.idleLongpress 1#1) := by decide

theorem test_decode_idle_extreset : decode (.w 0b000110#6) = .ok (.idleExtreset 0#1) := by decide

theorem test_decode_sel_arm : decode (.w 0b010000#6) = .ok .selArm := by decide

theorem test_decode_sel_arm_commit : decode (.w 0b010001#6) = .ok .selArmCommit := by decide

theorem test_decode_sel_held : decode (.w 0b010110#6) = .ok (.selHeld 1#1) := by decide

theorem test_decode_sel_quiet : decode (.w 0b011000#6) = .ok .selQuiet := by decide

theorem test_decode_sel_commit : decode (.w 0b011001#6) = .ok .selCommit := by decide

theorem test_decode_sel_advance : decode (.w 0b011110#6) = .ok (.selAdvance 1#1) := by decide

theorem test_decode_tick_fault : decode (.w 0b110101#6) = .ok (.tickFault 1#1 0#1 1#1 0#1 1#1) := by decide

/-- V4.26 and V1.2: refused words. -/
theorem test_unformable_words_refused :
    decode (.w 0x02#6) = .error .unformable ∧ decode (.w 0x07#6) = .error .unformable ∧
    decode (.w 0x15#6) = .error .unformable ∧ decode (.w 0x1D#6) = .error .unformable ∧
    decode (.w 0x0B#6) = .error .unformable ∧ decode (.q 0b110#3) = .error .unformable ∧
    decode (.q 0b111#3) = .error .unformable := by decide

theorem test_table_words :
    decodeTableWord 3 0b100 = some (.runTick 0#1) ∧ decodeTableWord 6 0x1C = some (.selAdvance 0#1) ∧
    decodeTableWord 8 0x19 = some .selCommit ∧ decodeTableWord 8 0x40 = none := by decide

/-! ### Flags and the sampler -/

/-- V1.3. -/
theorem test_exp :
    expBit cfg idleMode 14#8 1#1 0#1 = 0#1 ∧ expBit cfg idleMode 15#8 1#1 0#1 = 1#1 ∧
    expBit cfg idleMode 15#8 1#1 1#1 = 0#1 ∧ expBit cfg idleMode 255#8 1#1 0#1 = 0#1 ∧
    expBit cfg selectMode 29#8 0#1 0#1 = 0#1 ∧ expBit cfg selectMode 30#8 0#1 0#1 = 1#1 ∧
    expBit cfg selectMode 30#8 1#1 0#1 = 0#1 ∧ expBit cfg selectMode 30#8 0#1 1#1 = 0#1 ∧
    expBit cfg 0b10#2 30#8 0#1 0#1 = 0#1 := by decide

/-- V2.1 and V2.2. -/
theorem test_sample :
    { tickState idleMode 0#1 0#1 with selN := 0#1, rstOutside := 1#1 }.sample = (1#1, 0#1) ∧
    { tickState idleMode 0#1 0#1 with selN := 1#1, rstOutside := 0#1 }.sample = (0#1, 1#1) ∧
    { tickState idleMode 0#1 0#1 with rstOutside := 1#1, rstOe := 1#1 }.sample.2 = 1#1 := by decide

/-- V7.1 and V7.2. -/
theorem test_indicator :
    ([0, 1, 2, 3, 4, 5, 6, 7, 8].map fun n => indicator 1#2 0#1 (BitVec.ofNat 8 n)) =
      [0#1, 0#1, 1#1, 1#1, 0#1, 0#1, 1#1, 1#1, 0#1] ∧
    ([0, 1, 2, 3, 4].map fun n => indicator 1#2 1#1 (BitVec.ofNat 8 n)) = [1#1, 1#1, 0#1, 0#1, 1#1] ∧
    indicator 0#2 1#1 0#8 = 0#1 := by decide

/-! ### Procedures -/

/-- V5.3 and V5.4. -/
theorem test_commit_index :
    (commitIndex 3#2 { tickState idleMode 0#1 0#1 with lastSaved := 2#2 }).trace = [.evStoreWrite 0 0x03#8] ∧
    (commitIndex 3#2 { tickState idleMode 0#1 0#1 with lastSaved := 3#2 }).trace = [] := by decide

/-- V5.5: the corrupted byte stays. -/
theorem test_commit_index_keeps_corrupted_byte :
    (commitIndex 2#2 { tickState idleMode 0#1 0#1 with lastSaved := 2#2, store := [(0, 0xFE#8)] }).store
      = [(0, 0xFE#8)] := by decide

/-- V5.6. -/
theorem test_load_store :
    ((loadStore (bootState cfg 0x06#8 0x80#8 [])).idx, (loadStore (bootState cfg 0x06#8 0x80#8 [])).theme)
      = (2#2, 0#1) ∧
    ((loadStore (bootState cfg 0xFF#8 0xFF#8 [])).idx, (loadStore (bootState cfg 0xFF#8 0xFF#8 [])).theme)
      = (3#2, 1#1) := by decide

/-- V5.8. -/
theorem test_theme_toggle :
    (themeToggle { bootState cfg 0x00#8 0xFF#8 [] with theme := 1#1 }).trace = [.evStoreWrite 1 0x00#8] := by decide

/-- V6.2. -/
theorem test_pulse :
    (pulseReset { tickState idleMode 0#1 0#1 with ledOut := 1#1 }).trace =
      [.evRst 1#1, .evLed 0#1, .evSleep 50, .evLed 1#1, .evSleep 200, .evRst 0#1, .evSleep 250] := by decide

/-- V7.4 and V7.3. -/
theorem test_blinks :
    (feedbackBlink (tickState idleMode 0#1 0#1)).trace = [.evLed 1#1, .evSleep 50, .evLed 0#1, .evSleep 50,
      .evLed 1#1, .evSleep 50, .evLed 0#1, .evSleep 50] ∧
    (selfTest (tickState idleMode 0#1 0#1)).trace =
      (List.replicate 10 [Event.evLed 1#1, .evSleep 50, .evLed 0#1, .evSleep 50]).flatten := by decide

/-! ### One step, by instruction -/

/-- V4.1. -/
theorem test_idle_rest :
    (after (step { tickState idleMode 0#1 0#1 with bTimer := 7#8, idx := 2#2 })).map
      (fun t => (t.bTimer, t.trace)) = some (0#8, [.evLed 1#1, .evSleep 50]) := by decide

/-- V4.3. -/
theorem test_idle_hold :
    (after (step { tickState idleMode 1#1 0#1 with bTimer := 3#8 })).map (fun t => (t.bTimer, t.trace))
      = some (4#8, [.evLed 1#1, .evSleep 50]) := by decide

/-- V4.21: the 8-bit wrap. -/
theorem test_idle_hold_wraps :
    (after (step { tickState idleMode 1#1 0#1 with bTimer := 255#8 })).map (fun t => (t.bTimer, t.mode))
      = some (0#8, idleMode) := by decide

/-- V4.4. -/
theorem test_idle_longpress :
    (after (step { tickState idleMode 1#1 0#1 with bTimer := 15#8, idx := 2#2, ign := 1#1, ob := 1#1 })).map
      (fun t => (t.mode, t.bTimer, t.ob, t.ign, t.trace)) = some (selectMode, 0#8, 0#1, 0#1,
        [.evLed 1#1, .evLed 0#1, .evSleep 50, .evLed 1#1, .evSleep 50, .evLed 0#1, .evSleep 50, .evLed 1#1,
         .evSleep 50, .evSleep 50]) := by decide

/-- V4.5: both lines pressed, the reset line wins. -/
theorem test_idle_extreset :
    (after (step { tickState idleMode 1#1 1#1 with bTimer := 5#8, ign := 0#1 })).map
      (fun t => (t.mode, t.bTimer, t.ign)) = some (selectMode, 0#8, 1#1) := by decide

/-- V4.7. -/
theorem test_sel_arm :
    (after (step { tickState selectMode 0#1 0#1 with ob := 0#1 })).map (fun t => (t.ob, t.bTimer, t.trace))
      = some (1#1, 1#8, [.evLed 0#1, .evSleep 50]) := by decide

/-- V4.9. -/
theorem test_sel_held :
    (after (step { tickState selectMode 0#1 1#1 with ob := 0#1, bTimer := 9#8 })).map
      (fun t => (t.mode, t.ob, t.bTimer, t.idx)) = some (selectMode, 0#1, 0#8, 0#2) := by decide

/-- V4.10. -/
theorem test_sel_quiet :
    (after (step { tickState selectMode 0#1 0#1 with ob := 1#1, bTimer := 12#8 })).map
      (fun t => (t.ob, t.bTimer, t.mode)) = some (1#1, 13#8, selectMode) := by decide

/-- V4.12. -/
theorem test_sel_advance :
    (after (step { tickState selectMode 1#1 1#1 with ob := 1#1, bTimer := 1#8, idx := 1#2, ign := 1#1 })).map
      (fun t => (t.ign, t.idx, t.addrOut, t.bTimer, t.trace)) = some (0#1, 2#2, 2#2, 0#8,
        [.evLed 0#1, .evAddr 2#2, .evSleep 20, .evSleep 50]) := by decide

/-- V4.13: the index wraps. -/
theorem test_sel_advance_wraps :
    (after (step { tickState selectMode 1#1 0#1 with ob := 1#1, idx := 3#2 })).map (fun t => (t.idx, t.addrOut))
      = some (0#2, 0#2) := by decide

/-- V4.14. -/
theorem test_sel_commit :
    (after (step { tickState selectMode 0#1 0#1 with
      ob := 1#1, bTimer := 30#8, ign := 0#1, idx := 0#2, lastSaved := 2#2 })).map
      (fun t => (t.mode, t.lastSaved, t.store, t.trace)) = some (idleMode, 0#2, [(0, 0x00#8)],
        [.evLed 1#1, .evRst 1#1, .evLed 0#1, .evSleep 50, .evLed 1#1, .evSleep 200, .evRst 0#1, .evSleep 250,
         .evStoreWrite 0 0x00#8, .evSleep 50]) := by decide

/-- V4.17: a write and no pulse. -/
theorem test_sel_commit_suppressed :
    (after (step { tickState selectMode 0#1 0#1 with
      ob := 1#1, bTimer := 30#8, ign := 1#1, idx := 3#2, lastSaved := 1#2 })).map (fun t => t.trace)
      = some [.evLed 1#1, .evStoreWrite 0 0x03#8, .evSleep 50] := by decide

/-- V4.19. -/
theorem test_sel_arm_commit :
    (after (step { tickState selectMode 0#1 0#1 with
      cfg := least, ob := 0#1, ign := 1#1, idx := 1#2, lastSaved := 1#2 })).map
      (fun t => (t.mode, t.ob, t.bTimer, t.trace)) = some (idleMode, 1#1, 0#8, [.evLed 0#1, .evSleep 50]) := by decide

/-- V4.25. -/
theorem test_tick_fault :
    (after (step (tickState 0b10#2 1#1 0#1))).map (fun t => (t.mode, t.ledOut, t.addrOut, t.faultLog, t.trace))
      = some (0b10#2, 1#1, 0b11#2, [.faultMode 0b10#2], [.evLed 1#1, .evAddr 0b11#2, .evSleep 50]) := by decide

/-- The events of V8.1. -/
def bootEvents : List Event :=
  .evRst 0#1 :: .evLed 0#1 :: .evAddr 2#2 :: .evSleep 20 :: .evRst 1#1 :: .evLed 1#1 :: .evSleep 50 :: .evLed 0#1
    :: .evSleep 200 :: .evRst 0#1 :: .evSleep 250
    :: List.append (List.replicate 10 [Event.evLed 1#1, .evSleep 50, .evLed 0#1, .evSleep 50]).flatten [.evSleep 250]

/-- V8.1. -/
theorem test_boot_plain :
    (after (step (bootState cfg 0x02#8 0x00#8 [pins 0#1 0#1]))).map (fun t => (t.phase, t.mode, t.idx, t.trace))
      = some (.run, idleMode, 2#2, bootEvents) := by decide

/-- V8.5. -/
theorem test_boot_theme :
    (after (step (bootState cfg 0xFF#8 0xFF#8 [pins 1#1 0#1]))).map (fun t => (t.phase, t.idx, t.theme, t.trace))
      = some (.waitRelease, 3#2, 0#1, [.evRst 0#1, .evLed 0#1, .evAddr 3#2, .evSleep 20, .evStoreWrite 1 0x00#8,
        .evSleep 50]) := by decide

/-- V8.3. -/
theorem test_wait_hold :
    (after (step { tickState idleMode 1#1 0#1 with phase := .waitRelease })).map (fun t => (t.phase, t.trace))
      = some (.waitRelease, [.evSleep 50]) := by decide

/-- V8.4. -/
theorem test_wait_done :
    (after (step { tickState selectMode 0#1 0#1 with phase := .waitRelease, bTimer := 9#8 })).map
      (fun t => (t.phase, t.mode, t.bTimer, pulses t.trace)) = some (.run, idleMode, 0#8, 1) := by decide

/-! ### The pipeline's word and the scripts -/

theorem test_fetch_word_runs_first :
    (State.reset.withFetchWord 8 0x1C).nextBranch = .ok (.selAdvance 0#1) ∧
    (State.reset.withFetchWord 8 0x01).nextBranch = .ok .bootTheme ∧
    (after (step (State.reset.withFetchWord 8 0x1C))).map (fun t => t.idx) = some 1#2 := by decide

/-- R79's example of a printed step. -/
theorem test_printed : (Instr.selAdvance 0#1).printed = "SEL_ADVANCE W=0x1C" := by decide

theorem test_parse_line :
    parseLine "POWERON idx=0xFE theme=255 sel=1 ; comment" =
      some [.step (.powerOn 0xFE#8 0xFF#8 1#1)] := by decide +kernel

theorem test_parse_pseudo_steps :
    parseLine "REPEAT 4 TAP" = some [.replicate 4 .tap] ∧ parseLine "QUIET 31" = some [.quiet 31] ∧
    parseLine "; only a comment" = some [] ∧ parseLine "TICK sel=2 rst=0" = none := by decide +kernel

theorem test_line_off_phase_refused :
    refusal (runLine (.poll 0#1) (tickState idleMode 0#1 0#1)) = some .scriptMismatch := by decide

/-! ### Witnesses: concrete states and operands that meet a statement's hypotheses, clause by clause -/

theorem witness_DecodeAndEncodeAgree :
    decode (.w 0x3F#6) = .ok (.tickFault 1#1 1#1 1#1 1#1 1#1) ∧ decode (.q 0b100#3) = .ok (.runTick 0#1) := by decide

theorem witness_PhaseWordSelectsOneBranch :
    (0b101#3 &&& 0b110#3 = 0b100#3) ∧ (0b111#3 &&& 0b110#3 = 0b110#3) := by decide

theorem witness_TickWordSelectsOneBranch :
    (0x08#6 &&& 0x37#6 = 0x00#6) ∧ (0x0C#6 &&& 0x37#6 = 0x04#6) ∧ (0x0D#6 &&& 0x37#6 = 0x05#6) ∧
    (0x0E#6 &&& 0x37#6 = 0x06#6) ∧ (0x10#6 &&& 0x3F#6 = 0x10#6) ∧ (0x11#6 &&& 0x3F#6 = 0x11#6) ∧
    (0x16#6 &&& 0x3D#6 = 0x14#6) ∧ (0x18#6 &&& 0x3F#6 = 0x18#6) ∧ (0x19#6 &&& 0x3F#6 = 0x19#6) ∧
    (0x1E#6 &&& 0x3D#6 = 0x1C#6) ∧ (0x3F#6 &&& 0x20#6 = 0x20#6) := by decide

theorem witness_StepsFormExactlyTheWellFormedInstructions :
    (tickState 0b11#2 1#1 1#1).nextBranch = .ok (.tickFault 1#1 0#1 1#1 1#1 0#1) ∧
    (Instr.tickFault 1#1 0#1 1#1 1#1 0#1).wellFormed = true ∧
    ∀ b, Instr.tickFault 1#1 0#1 1#1 1#1 0#1 ≠ .runTick b := by decide

theorem witness_DecodeWordsHoldTheirFields : { tickState idleMode 0#1 0#1 with selN := 0#1 }.sample.2 = 0#1 := by decide

theorem witness_SampleReadsTheLineLevels :
    { tickState idleMode 0#1 0#1 with rstOe := 1#1 }.rstOe = 1#1 ∧ (tickState idleMode 0#1 0#1).rstOe = 0#1 ∧
    (tickState idleMode 1#1 0#1).stimulus = ⟨0#1, 1#1⟩ :: [] ∧ State.reset.stimulus = [] := by decide

theorem witness_StepRunsTheDecodedInstruction :
    (tickState idleMode 1#1 0#1).cfg.wf = true ∧
    (tickState idleMode 1#1 0#1).drawPins.phaseBranch = .ok (.runTick 1#1) ∧
    (tickState selectMode 1#1 0#1).tickBranch = .ok .selArm ∧
    { cfg with tLong := 255 }.wf = false := by decide

theorem witness_NoHaltState : State.reset.cfg.wf = true := by decide

theorem witness_StepSamplesOnceAndOnlyAppends :
    (∃ t, step (tickState 0b11#2 0#1 0#1) = .next t) ∧ ∃ t, step (tickState idleMode 1#1 1#1) = .next t :=
  ⟨⟨_, rfl⟩, ⟨_, rfl⟩⟩

/-- The boundary is a press of exactly `T_LONG` ticks. -/
theorem witness_IdleRestClearsTheTimer :
    let s := tickState idleMode 0#1 0#1
    (s.mode = idleMode ∧ s.sample = (0#1, 0#1)) ∧
    let r := { s with stimulus := List.replicate 15 (⟨0#1, 1#1⟩ : Pins) ++ (⟨1#1, 1#1⟩ : Pins) :: [] }
    r.cfg.wf = true ∧ r.phase = .run ∧ r.mode = idleMode ∧ r.bTimer = 0#8 ∧ r.rstOe = 0#1 ∧ 15 ≤ r.cfg.tLong ∧
      r.stimulus = List.replicate 15 ⟨0#1, 1#1⟩ ++ ⟨1#1, 1#1⟩ :: [] := by decide

/-- The boundaries are `BTIMER + 1 = T_LONG` and the wrap from 255. -/
theorem witness_IdleHoldCountsThePress :
    let s := { tickState idleMode 0#1 0#1 with selN := 0#1, bTimer := 14#8 }
    let w := { s with bTimer := 255#8 }
    (s.mode = idleMode ∧ s.sample = (1#1, 0#1) ∧ (s.bTimer.toNat + 1) % 256 ≤ s.cfg.tLong) ∧
    (w.mode = idleMode ∧ w.sample = (1#1, 0#1) ∧ (w.bTimer.toNat + 1) % 256 ≤ w.cfg.tLong) := by decide

/-- A state of the tick loop reached from power-on, whose next samples are given. -/
def reached (c : Config) (samples : List Pins) : State :=
  (bootSuffix (bootPrefix (bootState c 0x02#8 0x01#8 (pins 0#1 0#1 :: samples)).drawPins))

theorem reached_is_reachable (c : Config) (samples : List Pins) (h : c.wf = true)
    (hm : Memory.wf (bootState c 0x02#8 0x01#8 (pins 0#1 0#1 :: samples)).store) : Reachable (reached c samples) := by
  refine .next (bootState c 0x02#8 0x01#8 (pins 0#1 0#1 :: samples)) _ (.start _ ⟨rfl, rfl, rfl, h, hm⟩) ?_
  obtain ⟨i, hi, hs⟩ := step_eq (bootState c 0x02#8 0x01#8 (pins 0#1 0#1 :: samples)) h
  rw [State.phaseBranch_eq] at hi
  simp [bootState, State.drawPins, State.powerOn, State.sample, pins] at hi
  rw [← hi] at hs
  exact hs

theorem witness_reached :
    Reachable (reached cfg []) ∧ (reached cfg []).phase = .run ∧ (reached cfg []).mode = idleMode :=
  ⟨reached_is_reachable _ _ (by decide) (by decide), by decide, by decide⟩

/-- The boundary is `T_LONG = 0`, where the first pressed tick enters Select. -/
theorem witness_LongPressEntersSelect :
    (let s := { tickState idleMode 0#1 0#1 with selN := 0#1, bTimer := 15#8 }
     s.cfg.wf = true ∧ s.mode = idleMode ∧ s.sample = (1#1, 0#1) ∧ s.cfg.tLong < (s.bTimer.toNat + 1) % 256) ∧
    (let s := { tickState idleMode 1#1 0#1 with cfg := least }
     s.cfg.wf = true ∧ s.phase = .run ∧ s.mode = idleMode ∧ s.bTimer = 0#8 ∧ s.rstOe = 0#1 ∧
       s.stimulus = List.replicate (s.cfg.tLong + 1) ⟨0#1, 1#1⟩ ++ []) ∧
    Reachable (reached least [pins 1#1 0#1]) ∧
    (reached least [pins 1#1 0#1]).nextBranch = .ok (.idleLongpress 0#1) :=
  ⟨by decide, by decide, reached_is_reachable _ _ (by decide) (by decide), by decide⟩

theorem witness_ResetLineEntersSelect :
    let s := { tickState idleMode 0#1 0#1 with selN := 0#1, rstOutside := 0#1 }
    s.cfg.wf = true ∧ s.mode = idleMode ∧ s.sample.2 = 1#1 := by decide

/-- A Select state reached from power-on: the boot, then one tick with the reset line active. -/
def reachedSelect (c : Config) (samples : List Pins) : State :=
  tickClose (enterSelect 1#1 (tickIndicator (reached c (pins 0#1 1#1 :: samples)).drawPins))

theorem witness_reachedSelect : Reachable (reachedSelect cfg [pins 0#1 0#1]) ∧
    (reachedSelect cfg [pins 0#1 0#1]).phase = .run ∧ (reachedSelect cfg [pins 0#1 0#1]).mode = selectMode :=
  ⟨.next _ _ (reached_is_reachable cfg [pins 0#1 1#1, pins 0#1 0#1] (by decide) (by decide)) rfl, by decide,
    by decide⟩

theorem witness_SelArmLatchesAndCounts :
    (let s := { tickState selectMode 0#1 0#1 with bTimer := 29#8 }
     s.mode = selectMode ∧ s.ob = 0#1 ∧ s.sample = (0#1, 0#1) ∧ (s.bTimer.toNat + 1) % 256 ≤ s.cfg.tCommit) ∧
    Reachable (reachedSelect cfg [pins 0#1 0#1]) ∧
    (reachedSelect cfg [pins 0#1 0#1]).nextBranch = .ok .selArm :=
  ⟨by decide, witness_reachedSelect.1, by decide⟩

/-- Each line on its own. -/
theorem witness_SelHeldClearsTheTimer :
    (let s := { tickState selectMode 0#1 0#1 with selN := 0#1 }
     s.mode = selectMode ∧ s.ob = 0#1 ∧ (s.sample.1 = 1#1 ∨ s.sample.2 = 1#1)) ∧
    let s := { tickState selectMode 0#1 0#1 with rstOutside := 0#1 }
    s.mode = selectMode ∧ s.ob = 0#1 ∧ (s.sample.1 = 1#1 ∨ s.sample.2 = 1#1) := by decide

/-- The boundaries are `BTIMER + 1 = T_COMMIT` and the wrap from 255. -/
theorem witness_SelQuietCounts :
    let s := { tickState selectMode 0#1 0#1 with ob := 1#1, bTimer := 29#8 }
    let w := { s with bTimer := 255#8 }
    (s.mode = selectMode ∧ s.ob = 1#1 ∧ s.sample = (0#1, 0#1) ∧ (s.bTimer.toNat + 1) % 256 ≤ s.cfg.tCommit) ∧
    w.mode = selectMode ∧ w.ob = 1#1 ∧ w.sample = (0#1, 0#1) ∧ (w.bTimer.toNat + 1) % 256 ≤ w.cfg.tCommit := by
  decide

theorem witness_SelAdvanceStepsTheBank :
    let s := { tickState selectMode 1#1 0#1 with ob := 1#1, idx := 3#2, rstOutside := 0#1 }
    (s.mode = selectMode ∧ s.ob = 1#1 ∧ (s.sample.1 = 1#1 ∨ s.sample.2 = 1#1)) ∧
    ∃ t, exec (.selAdvance 1#1) s = .next t ∧ s.mode = selectMode ∧
      (t.drawPins.sample.1 = 1#1 ∨ t.drawPins.sample.2 = 1#1) :=
  ⟨by decide, _, rfl, by decide, by decide⟩

/-- The boundaries are `BTIMER = T_COMMIT` and, for the run, `T_COMMIT = 1`. -/
theorem witness_SelCommitPulsesPersistsAndRests :
    let s := { tickState selectMode 0#1 0#1 with ob := 1#1, bTimer := 30#8, idx := 1#2 }
    let r := { tickState selectMode 0#1 0#1 with cfg := quick, stimulus := [⟨1#1, 1#1⟩, ⟨1#1, 1#1⟩] }
    (s.mode = selectMode ∧ s.ob = 1#1 ∧ s.sample = (0#1, 0#1) ∧ s.cfg.tCommit < (s.bTimer.toNat + 1) % 256) ∧
    ((∃ t, exec .selCommit s = .next t) ∧ s.idx ≠ s.lastSaved ∧ Memory.wf s.store ∧ 5 ≠ s.cfg.slotIdx) ∧
    (r.cfg.wf = true ∧ r.phase = .run ∧ r.mode = selectMode ∧ r.ob = 0#1 ∧ r.bTimer = 0#8 ∧ r.rstOe = 0#1 ∧
      0 < r.cfg.tCommit ∧ r.stimulus = List.replicate (r.cfg.tCommit + 1) ⟨1#1, 1#1⟩ ++ []) :=
  ⟨by decide, ⟨⟨_, rfl⟩, by decide, by decide, by decide⟩, by decide⟩

/-- The boundary is `T_COMMIT = 0`. -/
theorem witness_SelArmCommitArmsAndCommits :
    (let s := { tickState selectMode 0#1 0#1 with cfg := least, idx := 1#2 }
     (s.mode = selectMode ∧ s.ob = 0#1 ∧ s.sample = (0#1, 0#1) ∧ s.cfg.tCommit < (s.bTimer.toNat + 1) % 256) ∧
     (∃ t, exec .selArmCommit s = .next t) ∧ s.idx ≠ s.lastSaved ∧ Memory.wf s.store ∧ 5 ≠ s.cfg.slotIdx) ∧
    Reachable (reachedSelect least [pins 0#1 0#1]) ∧
    (reachedSelect least [pins 0#1 0#1]).nextBranch = .ok .selArmCommit :=
  ⟨⟨by decide, ⟨_, rfl⟩, by decide, by decide, by decide⟩,
    .next _ _ (reached_is_reachable least [pins 0#1 1#1, pins 0#1 0#1] (by decide) (by decide)) rfl, by decide⟩

/-- An equal index keeps the store (R131). -/
theorem witness_commit_of_the_same_index :
    (tickState selectMode 0#1 0#1).idx = (tickState selectMode 0#1 0#1).lastSaved := by decide

theorem witness_SelectTickIsOneAlgorithm : (tickState selectMode 1#1 1#1).mode = selectMode := by decide

/-- Both invalid codes. -/
theorem witness_TickFaultFlashesAndForcesTheAddress :
    (tickState 0b10#2 0#1 0#1).mode = 0b10#2 ∧ (tickState 0b11#2 0#1 0#1).mode = 0b11#2 := by decide

theorem witness_FaultRepeatsUntilPowerOff :
    ((tickState 0b11#2 0#1 0#1).cfg.wf = true ∧ (tickState 0b11#2 0#1 0#1).phase = .run ∧
      (tickState 0b11#2 0#1 0#1).mode = 0b11#2) ∧
    ∃ t, (bootState cfg 0x02#8 0x00#8 [pins 0#1 0#1]).phase ≠ .run ∧
      step (bootState cfg 0x02#8 0x00#8 [pins 0#1 0#1]) = .next t ∧ t.phase = .run :=
  ⟨by decide, _, by decide, rfl, rfl⟩

theorem witness_BootPlainLoadsPulsesAndStartsIdle :
    let s := bootState cfg 0xFE#8 0xFF#8 []
    s.phase = .powerOn ∧ s.sample.1 = 0#1 := by decide

theorem witness_BootThemeTogglesAndWaits :
    let s := { bootState cfg 0xFE#8 0xFF#8 [] with selN := 0#1 }
    s.phase = .powerOn ∧ s.sample.1 = 1#1 ∧ Memory.wf s.store ∧ 5 ≠ s.cfg.slotTheme := by decide

theorem witness_boot_theme_next : ∃ t, exec .bootTheme (bootState cfg 0xFE#8 0xFF#8 []) = .next t := ⟨_, rfl⟩

theorem witness_WaitHoldOnlyWaits :
    let s := { tickState idleMode 1#1 0#1 with
      phase := .waitRelease, selN := 0#1, stimulus := [⟨0#1, 1#1⟩, ⟨0#1, 0#1⟩] }
    s.cfg.wf = true ∧ s.phase = .waitRelease ∧ s.sample.1 = 1#1 ∧
      s.stimulus = [⟨0#1, 1#1⟩, ⟨0#1, 0#1⟩] ++ [] ∧ ∀ p ∈ [(⟨0#1, 1#1⟩ : Pins), ⟨0#1, 0#1⟩], p.selN = 0#1 := by
  decide

theorem witness_WaitDoneEndsTheBoot :
    let s := { tickState idleMode 0#1 0#1 with phase := .waitRelease }
    s.phase = .waitRelease ∧ s.sample.1 = 0#1 := by decide

/-- The other state differs in a register that power-off loses. -/
theorem witness_PowerCycleKeepsOnlyTheStore :
    let s := tickState selectMode 1#1 0#1
    let t := { s with idx := 3#2 }
    s.cfg.wf = true ∧ Memory.wf s.store ∧ t ≠ s ∧ t.store = s.store ∧ t.cfg = s.cfg ∧ t.stimulus = s.stimulus ∧
      t.draws = s.draws := by decide

theorem witness_EqualReadsMeanEqualStores : Memory.wf [(0, 0x02#8), (1, 0x00#8)] := by decide

/-- A tick's hypotheses, together, for each kind of branch that a whole-machine rule tells apart. -/
theorem witness_ticks :
    (∃ t, (tickState idleMode 0#1 1#1).phase = .run ∧ step (tickState idleMode 0#1 1#1) = .next t ∧
      (tickState idleMode 0#1 1#1).nextBranch = .ok (.idleExtreset 0#1) ∧ (tickState idleMode 0#1 1#1).mode = 0b00#2) ∧
    (∃ t, step { tickState selectMode 1#1 0#1 with ob := 1#1, idx := 3#2 } = .next t ∧
      { tickState selectMode 1#1 0#1 with ob := 1#1, idx := 3#2 }.nextBranch = .ok (.selAdvance 0#1)) ∧
    (∃ t, step { tickState selectMode 0#1 0#1 with ob := 1#1, bTimer := 30#8, idx := 3#2 } = .next t ∧
      { tickState selectMode 0#1 0#1 with ob := 1#1, bTimer := 30#8, idx := 3#2 }.nextBranch = .ok .selCommit) ∧
    ∃ t, step (tickState 0b10#2 0#1 0#1) = .next t ∧
      (tickState 0b10#2 0#1 0#1).nextBranch = .ok (.tickFault 0#1 0#1 0#1 0#1 0#1) :=
  ⟨⟨_, by decide, rfl, by decide, by decide⟩, ⟨_, rfl, by decide⟩, ⟨_, rfl, by decide⟩, ⟨_, rfl, by decide⟩⟩

/-- Two commits of one index: a commit, a long press that enters Select again, and a commit. -/
theorem witness_WriteOnlyInACommitThatChangesTheIndex :
    let s := { tickState selectMode 0#1 0#1 with
      cfg := least, ob := 1#1, idx := 1#2, stimulus := [pins 0#1 0#1, pins 1#1 0#1, pins 0#1 0#1] }
    ∃ a b u : State, s.phase = .run ∧ isCommit .selCommit ∧ isCommit .selArmCommit ∧
      (∀ m ∈ [Instr.idleLongpress 1#1], isCommit m = false) ∧ Path s [.selCommit] a ∧
      Path a [.idleLongpress 1#1] b ∧ Path b [.selArmCommit] u ∧ b.idx = a.idx :=
  ⟨_, _, _, by decide, rfl, rfl, by decide, .cons (by decide) rfl (.nil _), .cons (by decide) rfl (.nil _),
    .cons (by decide) rfl (.nil _), by decide⟩

theorem witness_SlotsAreIndependentAndSurvivePower :
    (∃ t, step (tickState idleMode 0#1 0#1) = .next t ∧
      (tickState idleMode 0#1 0#1).nextBranch = .ok (.idleRest 0#1) ∧ isCommit (.idleRest 0#1) = false ∧
      Instr.idleRest 0#1 ≠ .bootTheme) ∧
    ∃ u, Reachable (reached cfg [pins 0#1 0#1]) ∧ (reached cfg [pins 0#1 0#1]).phase ≠ .powerOn ∧
      (reached cfg [pins 0#1 0#1]).powerCycle.nextBranch = .ok .bootPlain ∧
      step (reached cfg [pins 0#1 0#1]).powerCycle = .next u :=
  ⟨⟨_, rfl, by decide, by decide, by decide⟩,
    ⟨_, reached_is_reachable _ _ (by decide) (by decide), by decide, by decide, rfl⟩⟩

theorem witness_PulsesOnlyAtBootAndUnsuppressedCommit :
    ∃ t, AtPowerOn (bootState cfg 0x02#8 0x00#8 [pins 1#1 0#1, pins 0#1 0#1]) ∧
      [Instr.bootTheme, .waitDone] ≠ [] ∧
      Path (bootState cfg 0x02#8 0x00#8 [pins 1#1 0#1, pins 0#1 0#1]) [.bootTheme, .waitDone] t :=
  ⟨_, ⟨rfl, rfl, rfl, by decide, by decide⟩, by decide,
    .cons (by decide) rfl (.cons (by decide) rfl (.nil _))⟩

/-- A visit through the reset line without an advance edge. -/
theorem witness_visit_suppressed :
    let s := { tickState idleMode 0#1 1#1 with
      cfg := quick, stimulus := [pins 0#1 1#1, pins 0#1 0#1, pins 0#1 0#1] }
    ∃ t, s.phase = .run ∧ (∀ m ∈ [Instr.selArm], staysInSelect m = true) ∧ isCommit .selCommit = true ∧
      [Instr.selArm].any isAdvance = false ∧ Path s (.idleExtreset 0#1 :: [.selArm] ++ [.selCommit]) t :=
  ⟨_, by decide, by decide, rfl, by decide,
    .cons (by decide) rfl (.cons (by decide) rfl (.cons (by decide) rfl (.nil _)))⟩

/-- A visit through a long press with an advance edge. -/
theorem witness_visit_pulses :
    let s := { tickState idleMode 1#1 0#1 with
      cfg := quick, stimulus := [pins 1#1 0#1, pins 0#1 0#1, pins 1#1 0#1, pins 0#1 0#1, pins 0#1 0#1] }
    ∃ t, s.phase = .run ∧ (∀ m ∈ [Instr.selArm, .selAdvance 0#1, .selArm], staysInSelect m = true) ∧
      isCommit .selCommit = true ∧
      Path s (.idleLongpress 0#1 :: [.selArm, .selAdvance 0#1, .selArm] ++ [.selCommit]) t :=
  ⟨_, by decide, by decide, rfl, .cons (by decide) rfl (.cons (by decide) rfl (.cons (by decide) rfl
    (.cons (by decide) rfl (.cons (by decide) rfl (.nil _)))))⟩

/-- Pressed through each line; and the two ways to stand before a commit, one tick and `T_COMMIT + 1` ticks from it. -/
theorem witness_CommitComesAfterExactlyTheQuietTime :
    (let s := { tickState selectMode 1#1 0#1 with stimulus := [(⟨0#1, 1#1⟩ : Pins), ⟨1#1, 0#1⟩] ++ [] }
     s.cfg.wf = true ∧ s.phase = .run ∧ s.mode = selectMode ∧ s.stimulus = [⟨0#1, 1#1⟩, ⟨1#1, 0#1⟩] ++ [] ∧
       ∀ p ∈ [(⟨0#1, 1#1⟩ : Pins), ⟨1#1, 0#1⟩], p.selN = 0#1 ∨ p.rstN = 0#1) ∧
    (let s := { tickState selectMode 0#1 0#1 with ob := 1#1, bTimer := 30#8 }
     s.cfg.wf = true ∧ s.phase = .run ∧ s.mode = selectMode ∧ s.rstOe = 0#1 ∧
       (s.ob = 1#1 ∧ s.bTimer.toNat ≤ s.cfg.tCommit) ∧ 1 = s.cfg.tCommit + 1 - s.bTimer.toNat ∧
       s.stimulus = List.replicate 1 ⟨1#1, 1#1⟩ ++ []) ∧
    (let s := { tickState selectMode 0#1 0#1 with stimulus := List.replicate 31 (⟨1#1, 1#1⟩ : Pins) ++ [] }
     s.cfg.wf = true ∧ s.phase = .run ∧ s.mode = selectMode ∧ s.rstOe = 0#1 ∧ (s.ob = 0#1 ∧ s.bTimer = 0#8) ∧
       31 = s.cfg.tCommit + 1 - s.bTimer.toNat ∧ s.stimulus = List.replicate 31 ⟨1#1, 1#1⟩ ++ []) := by decide

theorem witness_StepDurationsAreTheTable :
    State.reset.cfg = Config.default ∧
    ∃ t, step (bootState cfg 0x02#8 0x00#8 [pins 0#1 0#1]) = .next t ∧
      (bootState cfg 0x02#8 0x00#8 [pins 0#1 0#1]).nextBranch = .ok .bootPlain :=
  ⟨rfl, _, rfl, by decide⟩

theorem witness_InvariantHoldsAtPowerOn : AtPowerOn (bootState cfg 0xFE#8 0x00#8 []) :=
  ⟨rfl, rfl, rfl, by decide, by decide⟩

/-- An armed Select at the commit threshold. -/
theorem witness_EveryStepKeepsTheInvariant :
    Inv { tickState selectMode 0#1 0#1 with
      ob := 1#1, bTimer := 30#8, idx := 3#2, addrOut := 3#2, lastSaved := 3#2, theme := 1#1 } ∧
    ∃ t, step { tickState selectMode 0#1 0#1 with
      ob := 1#1, bTimer := 30#8, idx := 3#2, addrOut := 3#2, lastSaved := 3#2, theme := 1#1 } = .next t :=
  ⟨⟨by decide, by decide, rfl, fun h => absurd h (by decide), fun _ =>
      ⟨⟨by decide, by decide, by decide, by decide, by decide, by decide⟩, ⟨by decide, by decide⟩⟩⟩,
    ⟨_, rfl⟩⟩

theorem witness_FaultUnreachableFromPowerOn : Reachable (bootState cfg 0xFF#8 0xFF#8 []).powerCycle :=
  .cycle _ (.start _ ⟨rfl, rfl, rfl, by decide, by decide⟩)

/-- The registers unspecified at power-on, at other values. -/
theorem witness_UnwrittenRegistersAreNeverRead :
    let s := bootState cfg 0x02#8 0x00#8 [pins 0#1 0#1]
    let r := { s with mode := 0b11#2, bTimer := 77#8, idx := 3#2, ledOut := 1#1, rstOe := 0#1, lastSaved := 1#2 }
    SameForRules s r ∧ r ≠ s ∧ ∃ t, step s = .next t :=
  ⟨⟨by decide, by decide, by decide⟩, by decide, _, rfl⟩

theorem witness_ScriptLinesMatchThePhase :
    (tickState idleMode 0#1 0#1).phase ≠ linePhase (.powerOn 0x02#8 0x00#8 0#1) ∧
    (tickState idleMode 0#1 0#1).phase = linePhase (.tick 1#1 1#1) ∧
    (tickState idleMode 0#1 0#1).cfg.wf = true ∧ (tickState idleMode 0#1 0#1).rstOe = 0#1 ∧
    Memory.wf (tickState idleMode 0#1 0#1).store := by decide

theorem witness_PlacedWordIsTheNextBranch :
    State.reset.cfg.wf = true ∧ (Instr.tickFault 1#1 1#1 1#1 1#1 0#1).wellFormed = true ∧
    ∀ b, Instr.tickFault 1#1 1#1 1#1 1#1 0#1 ≠ .runTick b := by decide

end Sys2Proof.Tests
end

section
/-! PROOFS of the scope family (O11, O12, O10). One relation, `RunExtends`, says what no rule undoes: the parameters
and the environment stay, events and fault records are only added. Each shared procedure, each instruction and then the
step is shown to keep it; every instruction's completion is read off the same lemma. -/

namespace Sys2Proof.Machine

/-! ### What is only ever added to -/

/-- `t` continues `s`: the same parameters and environment, the events of `s` and more, the fault log of `s` followed
by exactly `log` (R41, R59, R171). -/
structure RunExtends (log : List FaultRecord) (s t : State) : Prop where
  /-- the parameters are not written (R41) -/
  cfg : t.cfg = s.cfg
  /-- no listed sample is taken -/
  stimulus : t.stimulus = s.stimulus
  /-- no free sample is taken -/
  draws : t.draws = s.draws
  /-- the events so far stay in front -/
  trace : s.trace <+: t.trace
  /-- exactly `log` is recorded -/
  faultLog : t.faultLog = s.faultLog ++ log

theorem RunExtends.trans {l m : List FaultRecord} {s t u : State} (hst : RunExtends l s t) (htu : RunExtends m t u) :
    RunExtends (l ++ m) s u where
  cfg := htu.cfg.trans hst.cfg
  stimulus := htu.stimulus.trans hst.stimulus
  draws := htu.draws.trans hst.draws
  trace := hst.trace.trans htu.trace
  faultLog := by rw [htu.faultLog, hst.faultLog, List.append_assoc]

/-- A change to other registers that emits `ev` continues the run with nothing recorded. -/
theorem RunExtends.of_emits {s t : State} (ev : List Event) (hcfg : t.cfg = s.cfg)
    (hstimulus : t.stimulus = s.stimulus) (hdraws : t.draws = s.draws) (htrace : t.trace = s.trace ++ ev)
    (hlog : t.faultLog = s.faultLog) : RunExtends [] s t :=
  ⟨hcfg, hstimulus, hdraws, ⟨ev, htrace.symm⟩, by rw [hlog, List.append_nil]⟩

/-- A change to other registers alone continues the run. -/
theorem RunExtends.of_silent {s t : State} (hcfg : t.cfg = s.cfg) (hstimulus : t.stimulus = s.stimulus)
    (hdraws : t.draws = s.draws) (htrace : t.trace = s.trace) (hlog : t.faultLog = s.faultLog) :
    RunExtends [] s t :=
  .of_emits [] hcfg hstimulus hdraws (by rw [htrace, List.append_nil]) hlog

/-- What continues the run after a change to other registers alone continues it from before the change. -/
theorem RunExtends.after_silent {l : List FaultRecord} {s t u : State} (htu : RunExtends l t u) (hcfg : t.cfg = s.cfg)
    (hstimulus : t.stimulus = s.stimulus) (hdraws : t.draws = s.draws) (htrace : t.trace = s.trace)
    (hlog : t.faultLog = s.faultLog) : RunExtends l s u :=
  (RunExtends.of_silent hcfg hstimulus hdraws htrace hlog).trans htu

/-- A last change to other registers alone adds nothing. -/
theorem RunExtends.then_silent {l : List FaultRecord} {s t u : State} (hst : RunExtends l s t) (hcfg : u.cfg = t.cfg)
    (hstimulus : u.stimulus = t.stimulus) (hdraws : u.draws = t.draws) (htrace : u.trace = t.trace)
    (hlog : u.faultLog = t.faultLog) : RunExtends l s u := by
  simpa using hst.trans (.of_silent hcfg hstimulus hdraws htrace hlog)

/-! ### The shared procedures -/

theorem sleep_extends (ms : Nat) (s : State) : RunExtends [] s (s.sleep ms) := .of_emits _ rfl rfl rfl rfl rfl

theorem driveLed_extends (b : Bit) (s : State) : RunExtends [] s (s.driveLed b) := .of_emits _ rfl rfl rfl rfl rfl

theorem driveAddr_extends (v : Bank) (s : State) : RunExtends [] s (s.driveAddr v) := .of_emits _ rfl rfl rfl rfl rfl

theorem raiseFaultMode_extends (s : State) : RunExtends [.faultMode s.mode] s s.raiseFaultMode :=
  ⟨rfl, rfl, rfl, List.prefix_rfl, rfl⟩

theorem setIndex_extends (i : Bank) (s : State) : RunExtends [] s (setIndex i s) := by
  rw [setIndex_eq]; exact .of_emits _ rfl rfl rfl rfl rfl

theorem themeToggle_extends (s : State) : RunExtends [] s (themeToggle s) := by
  rw [themeToggle_eq]; exact .of_emits _ rfl rfl rfl rfl rfl

/-- The double blink continues the run whatever the parity of FB_TOGGLES, so also outside R6's ranges. -/
theorem feedbackBlink_extends (s : State) : RunExtends [] s (feedbackBlink s) := by
  rw [feedbackBlink, blink_eq]; exact .of_emits _ rfl rfl rfl rfl rfl

theorem enterSelect_extends (ign : Bit) (s : State) : RunExtends [] s (enterSelect ign s) := by
  unfold enterSelect; exact (feedbackBlink_extends _).after_silent rfl rfl rfl rfl rfl

theorem commit_extends (s : State) : RunExtends [] s (commit s) := by
  rw [commit_eq]; exact .of_emits _ rfl rfl rfl rfl rfl

theorem bootPrefix_extends (s : State) : RunExtends [] s (bootPrefix s) := by
  rw [bootPrefix_eq]; exact .of_emits _ rfl rfl rfl rfl rfl

theorem bootSuffix_extends (s : State) : RunExtends [] s (bootSuffix s) := by
  rw [bootSuffix_eq]; exact .of_emits _ rfl rfl rfl rfl rfl

theorem tickIndicator_extends (s : State) : RunExtends [] s (tickIndicator s) := by
  unfold tickIndicator
  split
  · exact driveLed_extends _ s
  · exact .of_silent rfl rfl rfl rfl rfl

@[simp] theorem tickIndicator_mode (s : State) : (tickIndicator s).mode = s.mode := by
  unfold tickIndicator; split <;> rfl

theorem tickClose_extends (s : State) : RunExtends [] s (tickClose s) := sleep_extends _ s

/-! ### The instructions -/

/-- What a tick adds to the fault log: the mode's code if the mode is invalid (R115, R170). -/
def tickFaults (s : State) : List FaultRecord :=
  if s.mode = 0b10#2 ∨ s.mode = 0b11#2 then [.faultMode s.mode] else []

/-- A tick's record by the mode, in the order in which `State.tickBranch_eq` takes W apart. -/
theorem tickFaults_eq (s : State) :
    tickFaults s =
      if s.mode = idleMode then [] else if s.mode = selectMode then [] else [.faultMode s.mode] := by
  rcases two_bit_cases s.mode with h | h | h | h <;> simp [tickFaults, h, idleMode, selectMode]

/-- What an instruction adds to the fault log: TICK_FAULT raises FAULT_MODE (R115), and RUN_TICK does so through its
branch. -/
def instrFaults (i : Instr) (s : State) : List FaultRecord :=
  match i with
  | .tickFault _ _ _ _ _ => [.faultMode s.mode]
  | .runTick _ => tickFaults s
  | .bootPlain | .bootTheme | .waitDone | .waitHold | .idleRest _ | .idleHold _ | .idleLongpress _ | .idleExtreset _
  | .selArm | .selArmCommit | .selHeld _ | .selQuiet | .selCommit | .selAdvance _ => []

/-- The indicator update changes nothing that a record depends on. -/
theorem instrFaults_tickIndicator (i : Instr) (s : State) : instrFaults i (tickIndicator s) = instrFaults i s := by
  simp only [instrFaults, tickFaults, tickIndicator_mode]

/-- The outcome is a next state, and it continues `s` with `log` recorded. -/
def Completes (log : List FaultRecord) (s : State) (o : Host.Outcome State Fault Refusal) : Prop :=
  ∃ t, o = .next t ∧ RunExtends log s t

/-- Every instruction but RUN_TICK completes in every state. -/
theorem exec_completes_of_ne_runTick (i : Instr) (hi : ∀ b, i ≠ .runTick b) (s : State) :
    Completes (instrFaults i s) s (exec i s) := by
  cases i with
  | runTick sel => exact absurd rfl (hi sel)
  | bootPlain => exact ⟨_, rfl, (bootPrefix_extends s).trans (bootSuffix_extends _)⟩
  | bootTheme =>
    have toggled := (bootPrefix_extends s).trans (themeToggle_extends _)
    exact ⟨_, rfl, (toggled.trans (sleep_extends _ _)).then_silent rfl rfl rfl rfl rfl⟩
  | waitDone => exact ⟨_, rfl, bootSuffix_extends s⟩
  | waitHold => exact ⟨_, rfl, sleep_extends _ s⟩
  | idleRest ob => exact ⟨_, rfl, .of_silent rfl rfl rfl rfl rfl⟩
  | idleHold ob => exact ⟨_, rfl, .of_silent rfl rfl rfl rfl rfl⟩
  | idleLongpress ob => exact ⟨_, rfl, (enterSelect_extends _ _).after_silent rfl rfl rfl rfl rfl⟩
  | idleExtreset ob => exact ⟨_, rfl, enterSelect_extends _ s⟩
  | selArm => exact ⟨_, rfl, .of_silent rfl rfl rfl rfl rfl⟩
  | selArmCommit => exact ⟨_, rfl, (commit_extends _).after_silent rfl rfl rfl rfl rfl⟩
  | selHeld rst => exact ⟨_, rfl, .of_silent rfl rfl rfl rfl rfl⟩
  | selQuiet => exact ⟨_, rfl, .of_silent rfl rfl rfl rfl rfl⟩
  | selCommit => exact ⟨_, rfl, (commit_extends _).after_silent rfl rfl rfl rfl rfl⟩
  | selAdvance rst =>
    have driven := setIndex_extends (s.idx + 1#2) { s with ob := 0#1, ign := 0#1, idx := s.idx + 1#2 }
    have advanced : RunExtends [] s _ := driven.after_silent rfl rfl rfl rfl rfl
    exact ⟨_, rfl, advanced.then_silent rfl rfl rfl rfl rfl⟩
  | tickFault mode0 ob any rst exp =>
    exact ⟨_, rfl, ((raiseFaultMode_extends s).trans (driveLed_extends _ _)).trans (driveAddr_extends _ _)⟩

/-- The branch of a tick is not a tick itself, and it records a fault exactly in an invalid mode (R75, R115). -/
theorem tickBranch_faults (s : State) (i : Instr) (h : s.tickBranch = .ok i) :
    (∀ b, i ≠ .runTick b) ∧ instrFaults i s = tickFaults s := by
  rw [State.tickBranch_eq] at h
  injection h with h
  subst h
  rw [tickFaults_eq]
  by_cases hidle : s.mode = idleMode
  · simp only [if_pos hidle]
    (repeat' split) <;> simp [instrFaults]
  · by_cases hsel : s.mode = selectMode
    · simp only [if_neg hidle, if_pos hsel]
      (repeat' split) <;> simp [instrFaults]
    · simp only [if_neg hidle, if_neg hsel]
      simp [instrFaults]

/-- RUN_TICK completes in every state: W always selects a branch, and that branch completes (R100). -/
theorem exec_runTick_completes (sel : Bit) (s : State) : Completes (tickFaults s) s (exec (.runTick sel) s) := by
  obtain ⟨i, hi⟩ : ∃ i, s.tickBranch = .ok i := ⟨_, s.tickBranch_eq⟩
  obtain ⟨hne, hfaults⟩ := tickBranch_faults s i hi
  obtain ⟨t, ht, hbranch⟩ := exec_completes_of_ne_runTick i hne (tickIndicator s)
  rw [instrFaults_tickIndicator, hfaults] at hbranch
  refine ⟨tickClose t, ?_, ?_⟩
  · rw [execRunTick_eq sel s i hi, ht]; rfl
  · simpa using ((tickIndicator_extends s).trans hbranch).trans (tickClose_extends t)

/-- Every instruction completes in every state (R13). -/
theorem exec_completes (i : Instr) (s : State) : Completes (instrFaults i s) s (exec i s) := by
  by_cases h : ∃ b, i = .runTick b
  · obtain ⟨b, rfl⟩ := h
    exact exec_runTick_completes b s
  · exact exec_completes_of_ne_runTick i (fun b hb => h ⟨b, hb⟩) s

/-! ### The step -/

/-- Drawing the levels uses up the first listed sample, if one is listed (R14). -/
@[simp] theorem State.drawPins_stimulus (s : State) : s.drawPins.stimulus = s.stimulus.tail := by
  unfold State.drawPins; split <;> simp [*]

/-- Drawing the levels takes one free sample exactly if none is listed (R14). -/
@[simp] theorem State.drawPins_draws (s : State) :
    s.drawPins.draws = if s.stimulus = [] then s.draws + 1 else s.draws := by
  unfold State.drawPins; split <;> simp [*]

/-- What a step adds to the fault log (R115, R170): only a tick can raise FAULT_MODE. -/
def stepFaults (s : State) : List FaultRecord :=
  if s.phase = .run ∧ (s.mode = 0b10#2 ∨ s.mode = 0b11#2) then [.faultMode s.mode] else []

/-- The branch that Q selects records what the step is to record: nothing in the boot, the tick's fault in RUN. -/
theorem phaseBranch_faults (s : State) (i : Instr) (h : s.drawPins.phaseBranch = .ok i) :
    instrFaults i s.drawPins = stepFaults s := by
  rw [State.phaseBranch_eq, State.drawPins_phase] at h
  injection h with h
  subst h
  cases hp : s.phase with
  | run => simp [instrFaults, tickFaults, stepFaults, hp]
  | powerOn => by_cases hb : s.drawPins.sample.1 = 0#1 <;> simp [instrFaults, stepFaults, hp, hb]
  | waitRelease => by_cases hb : s.drawPins.sample.1 = 0#1 <;> simp [instrFaults, stepFaults, hp, hb]

/-- With legal parameters a step completes and continues the state with the step's levels. -/
theorem step_completes (s : State) (hc : s.cfg.wf = true) : Completes (stepFaults s) s.drawPins (step s) := by
  obtain ⟨i, hi, hstep⟩ := step_eq s hc
  rw [hstep, ← phaseBranch_faults s i hi]
  exact exec_completes i s.drawPins

/-- What a step that answers leaves and adds. -/
theorem step_extends (s t : State) (h : step s = .next t) : RunExtends (stepFaults s) s.drawPins t := by
  obtain ⟨hc, -⟩ := step_next s t h
  obtain ⟨u, hu, hext⟩ := step_completes s hc
  rw [h] at hu
  injection hu with hu
  exact hu ▸ hext

/-- With legal parameters a run of any length answers a next state: legal parameters stay legal. -/
theorem runSteps_completes (k : Nat) (s : State) (hc : s.cfg.wf = true) : ∃ t, runSteps k s = .next t := by
  induction k generalizing s with
  | zero => exact ⟨s, rfl⟩
  | succ k ih =>
    obtain ⟨t, ht, hext⟩ := step_completes s hc
    have htc : t.cfg.wf = true := by rw [hext.cfg, State.drawPins_cfg, hc]
    rw [runSteps_succ k s t ht]
    exact ih t htc

/-! ### The obligations -/

/-- Settles O11: each instruction by its case, runs by induction on their length with legal parameters as invariant. -/
theorem noHaltState : Obligations.NoHaltState := by
  refine ⟨fun i s => ?_, runSteps_completes⟩
  obtain ⟨t, ht, -⟩ := exec_completes i s
  exact ⟨t, ht⟩

/-- Settles O12: the step continues the state with the drawn levels, and the draw takes the one sample. -/
theorem stepSamplesOnceAndOnlyAppends : Obligations.StepSamplesOnceAndOnlyAppends := by
  intro s t h
  obtain ⟨hcfg, hstimulus, hdraws, ⟨ev, htrace⟩, hlog⟩ := step_extends s t h
  rw [State.drawPins_trace] at htrace
  exact ⟨hcfg.trans s.drawPins_cfg, hstimulus.trans s.drawPins_stimulus, hdraws.trans s.drawPins_draws,
    ⟨ev, htrace.symm⟩, by rw [hlog, State.drawPins_faultLog]; rfl⟩

/-- Settles O10: the step's, RUN_TICK's and the refusal's own lemmas. -/
theorem stepRunsTheDecodedInstruction : Obligations.StepRunsTheDecodedInstruction := by
  refine ⟨fun s i hc hi => ?_, fun s sel i hi => execRunTick_eq sel s i hi, step_badConfig⟩
  obtain ⟨j, hj, hstep⟩ := step_eq s hc
  rw [hi] at hj
  injection hj with hj
  exact hj ▸ hstep

end Sys2Proof.Machine
end

section
/-! PROOFS of the state family (O46, O47, O31, O45). The invariant `Inv` speaks by phase. Here it is taken apart into
what the boot's wait and the tick loop share (`Settled`: the released line, ADDR_OUT = IDX, the agreement with the
store) and what only the tick loop adds (`TimerInv`: R39 (a) to (d)). Each procedure is shown to keep the first, each
tick branch to establish the second from what W has checked; the step and the runs follow. -/

namespace Sys2Proof.Machine

/-! ### The shared part of the invariant -/

/-- What `Inv` says alike of the boot's wait and of the tick loop: R39 (e) and (f), legal parameters, no fault, and a
canonical store that agrees with the registers. -/
structure Settled (s : State) : Prop where
  /-- the parameters are in R6's ranges -/
  configLegal : s.cfg.wf = true
  /-- the store is in canonical form -/
  storeCanonical : Memory.wf s.store
  /-- no fault was recorded -/
  noFault : s.faultLog = []
  /-- the core does not drive the reset line -/
  released : s.rstOe = 0#1
  /-- the address outputs show the index -/
  addrShowsIndex : s.addrOut = s.idx
  /-- the registers and the store agree -/
  storeAgrees : StoreInv s

/-- The fields that `Settled` reads. -/
def settledFields (s : State) : Config × List Host.Cell × List FaultRecord × Bit × Bank × Bank × Bank × Bit :=
  (s.cfg, s.store, s.faultLog, s.rstOe, s.addrOut, s.idx, s.lastSaved, s.theme)

/-- A change to other fields keeps the shared part. -/
theorem Settled.of_fields_eq {s t : State} (h : Settled s) (hst : settledFields t = settledFields s) : Settled t := by
  simp only [settledFields, Prod.mk.injEq] at hst
  obtain ⟨hcfg, hstore, hlog, hrst, haddr, hidx, hsaved, htheme⟩ := hst
  obtain ⟨wf, canonical, noFault, released, addr, confirmed, persisted⟩ := h
  refine ⟨hcfg ▸ wf, hstore ▸ canonical, hlog ▸ noFault, hrst ▸ released, by rw [haddr, hidx, addr], ?_, ?_⟩
  · rw [State.memRead, hstore, hcfg, hsaved]; exact confirmed
  · rw [State.memRead, hstore, hcfg, htheme]; exact persisted

/-- An index written to its slot reads back through the mask (R52, R53). -/
theorem indexOfByte_zext8 (i : Bank) : indexOfByte (zext8 i) = i := by revert i; decide

/-- A theme written to its slot reads back through the mask (R52, R53). -/
theorem themeOfByte_zext8 (b : Bit) : themeOfByte (zext8 b) = b := by revert b; decide

/-! ### The shared procedures keep the shared part -/

theorem Settled.drawPins {s : State} (h : Settled s) : Settled s.drawPins :=
  h.of_fields_eq (by simp [settledFields])

theorem Settled.tickIndicator {s : State} (h : Settled s) : Settled (tickIndicator s) := by
  refine h.of_fields_eq ?_
  unfold Machine.tickIndicator
  split <;> rfl

theorem Settled.enterSelect {s : State} (h : Settled s) (ign : Bit) : Settled (enterSelect ign s) := by
  obtain ⟨-, -, hfb, -⟩ := configWf s.cfg h.configLegal
  exact h.of_fields_eq (by rw [enterSelect_eq ign s hfb]; rfl)

/-- The pulse ends with the line released again (R145). -/
theorem Settled.pulseReset {s : State} (h : Settled s) : Settled (pulseReset s) :=
  h.of_fields_eq (by rw [pulseReset_eq]; simp [settledFields, h.released])

theorem Settled.bootSuffix {s : State} (h : Settled s) : Settled (bootSuffix s) :=
  h.of_fields_eq (by rw [bootSuffix_eq]; simp [settledFields, h.released])

/-- Persisting the index makes it the last confirmed one; the theme's slot is another (R131, R135). -/
theorem Settled.commitIndex {s : State} (h : Settled s) (i : Bank) : Settled (commitIndex i s) := by
  obtain ⟨wf, canonical, noFault, released, addr, confirmed, persisted⟩ := h
  unfold Machine.commitIndex
  split
  · refine ⟨wf, State.memWrite_wf s .idx _ canonical, noFault, released, addr, ?_, ?_⟩
    · exact (congrArg indexOfByte (State.memRead_memWrite_same s .idx _ canonical)).trans (indexOfByte_zext8 i)
    · exact (congrArg themeOfByte (State.memRead_memWrite_other s .idx .theme _ wf (by decide))).trans persisted
  · exact ⟨wf, canonical, noFault, released, addr, confirmed, persisted⟩

/-- The inverted theme is in its slot; the index's slot is another (R133, R135). -/
theorem Settled.themeToggle {s : State} (h : Settled s) : Settled (themeToggle s) := by
  obtain ⟨wf, canonical, noFault, released, addr, confirmed, -⟩ := h
  refine ⟨wf, Memory.wf_write _ _ _ canonical, noFault, released, addr, ?_, ?_⟩
  · exact (congrArg indexOfByte (State.memRead_memWrite_other s .theme .idx _ wf (by decide))).trans confirmed
  · exact (congrArg themeOfByte (State.memRead_memWrite_same s .theme _ canonical)).trans (themeOfByte_zext8 _)

theorem Settled.commit {s : State} (h : Settled s) : Settled (commit s) := by
  unfold Machine.commit
  split
  · exact (h.pulseReset.commitIndex _).of_fields_eq rfl
  · exact (h.commitIndex _).of_fields_eq rfl

/-- Moving to another index keeps the shared part, since the address outputs move with it (R130). -/
theorem Settled.setIndex {s : State} (h : Settled s) (i : Bank) : Settled (setIndex i { s with idx := i }) := by
  obtain ⟨wf, canonical, noFault, released, -, confirmed, persisted⟩ := h
  exact ⟨wf, canonical, noFault, released, rfl, confirmed, persisted⟩

/-- `BootPrefix` establishes the shared part from any registers: it releases the line and loads the index and the
theme from the store (R163). -/
theorem Inv.bootPrefix_settled {s : State} (h : Inv s) : Settled (bootPrefix s) := by
  rw [bootPrefix_eq]
  exact ⟨h.configLegal, h.storeCanonical, h.noFault, rfl, rfl, rfl, rfl⟩

/-! ### The timer's part of the invariant -/

/-- R39 (a) to (d): what the tick loop keeps about MODE, OB and ButtonTimer. -/
structure TimerInv (s : State) : Prop where
  /-- (a) MODE is Idle or Select -/
  modeValid : s.mode = idleMode ∨ s.mode = selectMode
  /-- (b) an unarmed Select has counted nothing -/
  unarmedZero : s.mode = selectMode → s.ob = 0#1 → s.bTimer = 0#8
  /-- (c) an armed Select is within the commit threshold -/
  armedBound : s.mode = selectMode → s.ob = 1#1 → s.bTimer.toNat ≤ s.cfg.tCommit
  /-- (d) Idle is within the long-press threshold -/
  idleBound : s.mode = idleMode → s.bTimer.toNat ≤ s.cfg.tLong

/-- Idle asks only for (d). -/
theorem TimerInv.of_idle {s : State} (hm : s.mode = idleMode) (hb : s.bTimer.toNat ≤ s.cfg.tLong) : TimerInv s :=
  ⟨.inl hm, by simp [hm], by simp [hm], fun _ => hb⟩

/-- A Select that has counted nothing meets (b) and (c), armed or not. -/
theorem TimerInv.of_select_zero {s : State} (hm : s.mode = selectMode) (hb : s.bTimer = 0#8) : TimerInv s :=
  ⟨.inr hm, fun _ _ => hb, fun _ _ => by simp [hb], by simp [hm]⟩

/-- An armed Select asks only for (c). -/
theorem TimerInv.of_select_armed {s : State} (hm : s.mode = selectMode) (ho : s.ob = 1#1)
    (hb : s.bTimer.toNat ≤ s.cfg.tCommit) : TimerInv s :=
  ⟨.inr hm, by simp [ho], fun _ _ => hb, by simp [hm]⟩

/-- The invariant of the tick loop. -/
structure RunInv (s : State) : Prop where
  /-- the boot is over -/
  running : s.phase = .run
  /-- the part shared with the boot's wait -/
  settled : Settled s
  /-- R39 (a) to (d) -/
  timer : TimerInv s

theorem RunInv.inv {s : State} (h : RunInv s) : Inv s := by
  obtain ⟨hrun, ⟨wf, canonical, noFault, released, addr, agrees⟩, ⟨valid, unarmed, armed, idle⟩⟩ := h
  exact ⟨wf, canonical, noFault, by simp [hrun], fun _ => ⟨⟨valid, unarmed, armed, idle, released, addr⟩, agrees⟩⟩

theorem Inv.runInv {s : State} (h : Inv s) (hrun : s.phase = .run) : RunInv s := by
  obtain ⟨⟨valid, unarmed, armed, idle, released, addr⟩, agrees⟩ := h.ticking hrun
  exact ⟨hrun, ⟨h.configLegal, h.storeCanonical, h.noFault, released, addr, agrees⟩, ⟨valid, unarmed, armed, idle⟩⟩

theorem Inv.waitSettled {s : State} (h : Inv s) (hwait : s.phase = .waitRelease) : Settled s := by
  obtain ⟨⟨released, -, addr, -⟩, agrees⟩ := h.waiting hwait
  exact ⟨h.configLegal, h.storeCanonical, h.noFault, released, addr, agrees⟩

/-- The invariant while the boot waits, from its shared part. -/
theorem Settled.waitInv {s : State} (h : Settled s) (hwait : s.phase = .waitRelease) (hled : s.ledOut = 0#1)
    (hidx : s.lastSaved = s.idx) : Inv s :=
  ⟨h.configLegal, h.storeCanonical, h.noFault, fun _ => ⟨⟨h.released, hled, h.addrShowsIndex, hidx⟩, h.storeAgrees⟩,
    by simp [hwait]⟩

/-! ### The tick -/

/-- The outcome is a next state that satisfies `P`. -/
def Reaches (P : State → Prop) (o : Host.Outcome State Fault Refusal) : Prop := ∃ t, o = .next t ∧ P t

/-- Both entries to Select start the visit with nothing counted (R101, R104, R105). -/
theorem enterSelect_runInv {s : State} (hrun : s.phase = .run) (h : Settled s) (ign : Bit) :
    RunInv (enterSelect ign s) := by
  obtain ⟨-, -, hfb, -⟩ := configWf s.cfg h.configLegal
  have heq := enterSelect_eq ign s hfb
  exact ⟨by rw [heq]; exact hrun, h.enterSelect ign, .of_select_zero (by rw [heq]) (by rw [heq])⟩

/-- A commit ends in Idle with the timer at 0 (R112). -/
theorem commit_runInv {s : State} (hrun : s.phase = .run) (h : Settled s) : RunInv (commit s) :=
  ⟨by rw [commit_eq]; exact hrun, h.commit, .of_idle (by rw [commit_eq]) (by rw [commit_eq]; simp)⟩

/-- The branch that W selects in Idle keeps the invariant: it counts only up to the threshold (R102 to R105). -/
theorem exec_idle_keeps {s : State} {i : Instr} (h : RunInv s) (hm : s.mode = idleMode)
    (hi : s.tickBranch = .ok i) : Reaches RunInv (exec i s) := by
  rw [State.tickBranch_eq, if_pos hm] at hi
  injection hi with hi
  subst hi
  obtain ⟨hrun, hset, -⟩ := h
  split
  case isTrue => exact ⟨_, rfl, enterSelect_runInv hrun hset 1#1⟩
  case isFalse =>
    split
    case isTrue =>
      split
      case isTrue =>
        exact ⟨_, rfl, enterSelect_runInv (s := { s with bTimer := s.bTimer + 1#8 }) hrun (hset.of_fields_eq rfl) 0#1⟩
      case isFalse below =>
        exact ⟨_, rfl, hrun, hset.of_fields_eq rfl, .of_idle hm (Nat.not_lt.1 below)⟩
    case isFalse => exact ⟨_, rfl, hrun, hset.of_fields_eq rfl, .of_idle hm (Nat.zero_le _)⟩

/-- The branch that W selects in Select keeps the invariant: a pressed line clears the timer, and a released tick
arms the latch, counting only up to the threshold, or commits (R106 to R113). -/
theorem exec_select_keeps {s : State} {i : Instr} (h : RunInv s) (hm : s.mode = selectMode)
    (hi : s.tickBranch = .ok i) : Reaches RunInv (exec i s) := by
  have hidle : s.mode ≠ idleMode := by rw [hm]; decide
  rw [State.tickBranch_eq, if_neg hidle, if_pos hm] at hi
  injection hi with hi
  subst hi
  obtain ⟨hrun, hset, -⟩ := h
  split
  case isTrue =>
    split
    case isTrue =>
      exact ⟨_, rfl, hrun, (hset.setIndex (s.idx + 1#2)).of_fields_eq rfl, .of_select_zero hm rfl⟩
    case isFalse => exact ⟨_, rfl, hrun, hset.of_fields_eq rfl, .of_select_zero hm rfl⟩
  case isFalse =>
    split
    case isTrue =>
      split
      case isTrue =>
        exact ⟨_, rfl, commit_runInv (s := { s with bTimer := s.bTimer + 1#8 }) hrun (hset.of_fields_eq rfl)⟩
      case isFalse =>
        exact ⟨_, rfl, commit_runInv (s := { s with ob := 1#1, bTimer := s.bTimer + 1#8 }) hrun
          (hset.of_fields_eq rfl)⟩
    case isFalse below =>
      split
      case isTrue armed =>
        exact ⟨_, rfl, hrun, hset.of_fields_eq rfl, .of_select_armed hm armed (Nat.not_lt.1 below)⟩
      case isFalse =>
        exact ⟨_, rfl, hrun, hset.of_fields_eq rfl, .of_select_armed hm rfl (Nat.not_lt.1 below)⟩

theorem RunInv.drawPins {s : State} (h : RunInv s) : RunInv s.drawPins := by
  obtain ⟨hrun, hset, ⟨valid, unarmed, armed, idle⟩⟩ := h
  exact ⟨by simpa using hrun, hset.drawPins,
    ⟨by simpa using valid, by simpa using unarmed, by simpa using armed, by simpa using idle⟩⟩

theorem RunInv.tickIndicator {s : State} (h : RunInv s) : RunInv (tickIndicator s) := by
  obtain ⟨hrun, hset, ⟨valid, unarmed, armed, idle⟩⟩ := h
  rw [tickIndicator_valid s valid]
  exact ⟨hrun, hset.of_fields_eq rfl, ⟨valid, unarmed, armed, idle⟩⟩

theorem RunInv.tickClose {s : State} (h : RunInv s) : RunInv (tickClose s) := by
  obtain ⟨hrun, hset, ⟨valid, unarmed, armed, idle⟩⟩ := h
  exact ⟨hrun, hset.of_fields_eq rfl, ⟨valid, unarmed, armed, idle⟩⟩

/-- The indicator update changes nothing that W is formed from (R72, R100). -/
@[simp] theorem tickIndicator_tickBranch (s : State) : (tickIndicator s).tickBranch = s.tickBranch := by
  unfold tickIndicator
  split
  · exact s.tickBranch_driveLed _
  · rfl

/-- A whole tick keeps the invariant of the tick loop: W never selects the fault branch, since MODE is valid (R100). -/
theorem exec_runTick_keeps {s : State} (h : RunInv s) (sel : Bit) : Reaches RunInv (exec (.runTick sel) s) := by
  obtain ⟨i, hi⟩ : ∃ i, s.tickBranch = .ok i := ⟨_, s.tickBranch_eq⟩
  have hw : (tickIndicator s).tickBranch = .ok i := (tickIndicator_tickBranch s).trans hi
  have branchKeeps : Reaches RunInv (exec i (tickIndicator s)) := by
    rcases h.tickIndicator.timer.modeValid with hm | hm
    · exact exec_idle_keeps h.tickIndicator hm hw
    · exact exec_select_keeps h.tickIndicator hm hw
  obtain ⟨t, ht, hinv⟩ := branchKeeps
  exact ⟨tickClose t, by rw [execRunTick_eq sel s i hi, ht]; rfl, hinv.tickClose⟩

/-! ### The boot -/

/-- `BootSuffix` ends in Idle with the timer at 0 (R164). -/
theorem bootSuffix_runInv {s : State} (h : Settled s) : RunInv (bootSuffix s) :=
  ⟨by rw [bootSuffix_eq], h.bootSuffix, .of_idle (by rw [bootSuffix_eq]) (by rw [bootSuffix_eq]; simp)⟩

/-- Power-on with select held leaves a waiting boot, with the index as loaded and the indicator dark (R166). -/
theorem exec_bootTheme_inv {s : State} (h : Inv s) : Reaches Inv (exec .bootTheme s) := by
  have hled : (themeToggle (bootPrefix s)).ledOut = 0#1 := by rw [themeToggle_eq, bootPrefix_eq]
  have hidx : (themeToggle (bootPrefix s)).lastSaved = (themeToggle (bootPrefix s)).idx := by
    rw [themeToggle_eq, bootPrefix_eq]
  exact ⟨_, rfl, Settled.waitInv (h.bootPrefix_settled.themeToggle.of_fields_eq rfl) rfl hled hidx⟩

/-- A poll with select held changes nothing the wait is about (R167). -/
theorem exec_waitHold_inv {s : State} (h : Inv s) (hwait : s.phase = .waitRelease) :
    Reaches Inv (exec .waitHold s) := by
  obtain ⟨⟨-, hled, -, hidx⟩, -⟩ := h.waiting hwait
  exact ⟨_, rfl, Settled.waitInv ((h.waitSettled hwait).of_fields_eq rfl) hwait hled hidx⟩

/-! ### Every step and every run -/

/-- Drawing the levels touches nothing the invariant speaks of. -/
theorem Inv.drawPins {s : State} (h : Inv s) : Inv s.drawPins := by
  cases hp : s.phase with
  | powerOn =>
    exact ⟨by simpa using h.configLegal, by simpa using h.storeCanonical, by simpa using h.noFault, by simp [hp],
      by simp [hp]⟩
  | waitRelease =>
    obtain ⟨⟨-, hled, -, hidx⟩, -⟩ := h.waiting hp
    exact (h.waitSettled hp).drawPins.waitInv (by simpa using hp) (by simpa using hled) (by simpa using hidx)
  | run => exact (h.runInv hp).drawPins.inv

/-- The branch that Q selects keeps the invariant (R71): the two boots from POWERON, the two polls while the boot
waits, and the tick. -/
theorem exec_phaseBranch_keeps {s : State} {i : Instr} (h : Inv s) (hi : s.phaseBranch = .ok i) :
    Reaches Inv (exec i s) := by
  rw [State.phaseBranch_eq] at hi
  injection hi with hi
  subst hi
  cases hp : s.phase with
  | powerOn =>
    dsimp only
    split
    · exact ⟨_, rfl, (bootSuffix_runInv h.bootPrefix_settled).inv⟩
    · exact exec_bootTheme_inv h
  | waitRelease =>
    dsimp only
    split
    · exact ⟨_, rfl, (bootSuffix_runInv (h.waitSettled hp)).inv⟩
    · exact exec_waitHold_inv h hp
  | run =>
    obtain ⟨t, ht, hinv⟩ := exec_runTick_keeps (h.runInv hp) s.sample.1
    exact ⟨t, ht, hinv.inv⟩

/-- A step that answers keeps the invariant. -/
theorem step_keeps_inv {s t : State} (h : Inv s) (hstep : step s = .next t) : Inv t := by
  obtain ⟨-, i, hi, hexec⟩ := step_next s t hstep
  obtain ⟨u, hu, hinv⟩ := exec_phaseBranch_keeps h.drawPins hi
  rw [hexec] at hu
  injection hu with hu
  exact hu ▸ hinv

/-- At power-on the invariant says nothing of the unspecified registers (R38). -/
theorem AtPowerOn.inv {s : State} (h : AtPowerOn s) : Inv s := by
  obtain ⟨hphase, -, hlog, wf, canonical⟩ := h
  exact ⟨wf, canonical, hlog, by simp [hphase], by simp [hphase]⟩

/-- A power cycle starts a fresh run with the parameters and the store as they stand (R173, R184). -/
theorem Inv.powerCycle_atPowerOn {s : State} (h : Inv s) : AtPowerOn s.powerCycle :=
  ⟨rfl, rfl, rfl, h.configLegal, h.storeCanonical⟩

/-- Every state of every run from power-on has the invariant. -/
theorem Reachable.inv {s : State} (h : Reachable s) : Inv s := by
  induction h with
  | start s hs => exact hs.inv
  | next s t _ hstep ih => exact step_keeps_inv ih hstep
  | cycle s _ ih => exact ih.powerCycle_atPowerOn.inv

theorem reset_atPowerOn : AtPowerOn State.reset := ⟨rfl, rfl, rfl, by decide, State.reset_store_wf⟩

/-! ### The obligations -/

/-- Settles O46: the step by its phase and branch, the power cycle as a power-on. -/
theorem everyStepKeepsTheInvariant : Obligations.EveryStepKeepsTheInvariant :=
  ⟨fun _ _ => step_keeps_inv, fun _ h => h.powerCycle_atPowerOn.inv⟩

/-- Settles O47: by induction on the run, through the invariant of every reachable state. -/
theorem reachableTicksSatisfyTheInvariants : Obligations.ReachableTicksSatisfyTheInvariants :=
  fun _ h hrun => (h.inv.ticking hrun).1

/-- Settles O31: the fields of `State.reset`. -/
theorem resetIsAtPowerOnWithDefaults : Obligations.ResetIsAtPowerOnWithDefaults :=
  ⟨reset_atPowerOn, rfl, rfl, rfl⟩

/-- Settles O45: power-on is in no phase that the invariant constrains. -/
theorem invariantHoldsAtPowerOn : Obligations.InvariantHoldsAtPowerOn :=
  ⟨fun _ => AtPowerOn.inv, reset_atPowerOn.inv⟩

end Sys2Proof.Machine
end

section
/-! PROOFS of the memory family (O36, O35). A canonical store lists exactly the addresses that read as something else
than an erased byte, each with the byte it reads as; so the reads say which cells are listed, and their order is
fixed. -/

namespace Sys2Proof.Machine

/-! ### The listed cells are what the reads say -/

/-- Rising addresses list an address at most once: a listed cell is what its address reads as. -/
theorem Memory.read_of_mem {m : List Host.Cell} {a : Nat} {v : Byte}
    (rising : m.Pairwise (fun c d => c.1 < d.1)) (h : (a, v) ∈ m) : Memory.read m a = v := by
  induction m with
  | nil => simp at h
  | cons c rest ih =>
    obtain ⟨b, x⟩ := c
    obtain ⟨hlow, hrest⟩ := List.pairwise_cons.1 rising
    rcases List.mem_cons.1 h with hhead | htail
    · obtain ⟨rfl, rfl⟩ := Prod.mk.inj hhead
      simp [Memory.read]
    · have hba : b < a := hlow (a, v) htail
      simp only [Memory.read, if_neg hba.ne']
      exact ih hrest htail

/-- An address that reads as something else than an erased byte is listed. -/
theorem Memory.mem_of_read_ne_erased {m : List Host.Cell} {a : Nat} (h : Memory.read m a ≠ Config.erasedByte) :
    (a, Memory.read m a) ∈ m := by
  induction m with
  | nil => exact absurd rfl h
  | cons c rest ih =>
    obtain ⟨b, x⟩ := c
    by_cases hab : a = b
    · simp [Memory.read, hab]
    · simp only [Memory.read, if_neg hab] at h ⊢
      exact List.mem_cons_of_mem _ (ih h)

/-- In a canonical store the listed cells are the reads that differ from an erased byte. -/
theorem Memory.mem_iff_read {m : List Host.Cell} (hm : Memory.wf m) (c : Host.Cell) :
    c ∈ m ↔ Memory.read m c.1 = c.2 ∧ c.2 ≠ Config.erasedByte := by
  obtain ⟨rising, written⟩ := hm
  constructor
  · exact fun hc => ⟨Memory.read_of_mem rising hc, written c hc⟩
  · rintro ⟨hread, hne⟩
    have hlisted := Memory.mem_of_read_ne_erased (hread.symm ▸ hne)
    rwa [hread] at hlisted

/-- Lists with rising addresses and the same cells are the same list. -/
theorem Memory.eq_of_mem_iff {m n : List Host.Cell} (hm : m.Pairwise (fun c d => c.1 < d.1))
    (hn : n.Pairwise (fun c d => c.1 < d.1)) (h : ∀ c, c ∈ m ↔ c ∈ n) : m = n := by
  have : Std.Irrefl (fun c d : Host.Cell => c.1 < d.1) := ⟨fun c => lt_irrefl c.1⟩
  have : Std.Antisymm (fun c d : Host.Cell => c.1 < d.1) := ⟨fun _ _ hcd hdc => absurd hdc hcd.asymm⟩
  exact hm.eq_of_mem_iff hn h

/-! ### The slots' formats (R52, R53) -/

/-- The index mask keeps the byte modulo 4. -/
theorem indexOfByte_toNat (v : Byte) : (indexOfByte v).toNat = v.toNat % 4 := by
  simp [indexOfByte]

/-- The theme mask keeps the byte modulo 2. -/
theorem themeOfByte_toNat (v : Byte) : (themeOfByte v).toNat = v.toNat % 2 := by
  simp [themeOfByte]

/-- A register of at most 8 bits keeps its value as a byte. -/
theorem zext8_toNat {k : Nat} (hk : k ≤ 8) (v : BitVec k) : (zext8 v).toNat = v.toNat :=
  BitVec.toNat_setWidth_of_le hk

/-! ### The obligations -/

/-- Settles O36: equal reads list the same cells, and rising addresses fix their order. -/
theorem equalReadsMeanEqualStores : Obligations.EqualReadsMeanEqualStores := by
  intro m n hm hn hreads
  refine Memory.eq_of_mem_iff hm.1 hn.1 fun c => ?_
  rw [Memory.mem_iff_read hm, Memory.mem_iff_read hn, hreads]

/-- Settles O35: the masks and the zero extension in numbers; the boot branches complete as every instruction does. -/
theorem slotFormatsMaskAndZeroExtend : Obligations.SlotFormatsMaskAndZeroExtend := by
  refine ⟨fun v => ⟨indexOfByte_toNat v, themeOfByte_toNat v⟩,
    fun i b => ⟨zext8_toNat (by decide) i, zext8_toNat (by decide) b⟩, fun s m => ?_⟩
  obtain ⟨t, plain, -⟩ := exec_completes .bootPlain { s with store := m }
  obtain ⟨u, theme, -⟩ := exec_completes .bootTheme { s with store := m }
  exact ⟨⟨t, plain⟩, ⟨u, theme⟩⟩

end Sys2Proof.Machine
end

section
/-! PROOFS of the encoding family (O1 to O8, O50 to O52). The decoder is read row by row: a word is decoded by the one
row it matches, and that row's branch encodes to the word again. The tick words that a state can form are those of
`FormableTickWord`; they are the words of the well-formed tick branches, and placing one makes the next step form it.
So the branches that steps run and the words that can be placed are settled by one notion. -/

namespace Sys2Proof

/-! ### The decoder, row by row -/

/-- What the decoder answers is the branch of a row that the word matches. -/
theorem exists_row_of_decodeIn {n : Nat} {table : List (Row n)} {x : BitVec n} {i : Instr}
    (h : decodeIn table x = .ok i) : ∃ r ∈ table, r.matches x = true ∧ r.build x = i := by
  unfold decodeIn at h
  split at h
  next r hfound =>
    obtain ⟨hx, -⟩ := List.find?_eq_some_iff_append.1 hfound
    exact ⟨r, List.mem_of_find?_eq_some hfound, hx, Except.ok.inj h⟩
  next => cases h

/-- Where no two rows match a word, the decoder takes whichever row the word matches. -/
theorem decodeIn_of_matches {n : Nat} {table : List (Row n)} {x : BitVec n} {r : Row n}
    (disjoint : table.countP (fun r => r.matches x) ≤ 1) (hr : r ∈ table) (hx : r.matches x = true) :
    decodeIn table x = .ok (r.build x) := by
  induction table with
  | nil => cases hr
  | cons first rest ih =>
    cases hfirst : first.matches x with
    | true =>
      have noneInRest : ∀ q ∈ rest, q.matches x = false := by simpa [List.countP_cons, hfirst] using disjoint
      have hhead : r = first := (List.mem_cons.1 hr).resolve_right fun hrest => by simp [noneInRest r hrest] at hx
      simp [decodeIn, hfirst, hhead]
    | false =>
      have hrest : r ∈ rest := (List.mem_cons.1 hr).resolve_left fun hhead => by simp [← hhead, hx] at hfirst
      have hcount : rest.countP (fun r => r.matches x) ≤ 1 := by simpa [List.countP_cons, hfirst] using disjoint
      simpa [decodeIn, hfirst] using ih hcount hrest

/-- A phase word that matches a row of R71's table decodes to the row's branch. -/
theorem decode_q_row (k : Fin 5) (x : BitVec 3) (hx : x &&& (qTable.get k).mask = (qTable.get k).pattern) :
    decode (.q x) = .ok ((qTable.get k).build x) :=
  decodeIn_of_matches (qTable_disjoint x) (List.get_mem qTable k) (beq_iff_eq.2 hx)

/-- A tick word that matches a row of R75's table decodes to the row's branch. -/
theorem decode_w_row (k : Fin 11) (x : BitVec 6) (hx : x &&& (wTable.get k).mask = (wTable.get k).pattern) :
    decode (.w x) = .ok ((wTable.get k).build x) :=
  decodeIn_of_matches (wTable_disjoint x) (List.get_mem wTable k) (beq_iff_eq.2 hx)

/-- A row of R71's table keeps every bit: its branch encodes to the word it was built from. -/
theorem encode_build_q : ∀ r ∈ qTable, ∀ x : BitVec 3, r.matches x = true → encode (r.build x) = .q x := by decide

/-- A row of R75's table keeps every bit: its branch encodes to the word it was built from. -/
theorem encode_build_w : ∀ r ∈ wTable, ∀ x : BitVec 6, r.matches x = true → encode (r.build x) = .w x := by decide

/-- Encoding what a word decodes to gives the word back. -/
theorem encode_of_decode (x : StepWord) (i : Instr) (h : decode x = .ok i) : encode i = x := by
  cases x with
  | q x =>
    obtain ⟨r, hr, hx, rfl⟩ := exists_row_of_decodeIn h
    exact encode_build_q r hr x hx
  | w x =>
    obtain ⟨r, hr, hx, rfl⟩ := exists_row_of_decodeIn h
    exact encode_build_w r hr x hx

/-- Decoding an instruction's word gives the instruction back, operands included. -/
theorem decode_encode (i : Instr) : decode (encode i) = .ok i := by
  cases i with
  | bootPlain => rfl
  | bootTheme => rfl
  | waitDone => rfl
  | waitHold => rfl
  | runTick sel => revert sel; decide
  | idleRest ob => revert ob; decide
  | idleHold ob => revert ob; decide
  | idleLongpress ob => revert ob; decide
  | idleExtreset ob => revert ob; decide
  | selArm => rfl
  | selArmCommit => rfl
  | selHeld rst => revert rst; decide
  | selQuiet => rfl
  | selCommit => rfl
  | selAdvance rst => revert rst; decide
  | tickFault mode0 ob any rst exp => revert mode0 ob any rst exp; decide

/-! ### The refused words (R76) -/

/-- The tick words of no row are those of R76's four forms. -/
theorem decode_w_unformable_iff : ∀ x : BitVec 6, decode (.w x) = .error .unformable ↔
    (x.extractLsb' 5 1 = 0#1 ∧ x.extractLsb' 1 2 = 0b01#2) ∨
    (x.extractLsb' 4 2 = 0b00#2 ∧ x.extractLsb' 0 3 = 0b001#3) ∨
    (x.extractLsb' 4 2 = 0b00#2 ∧ x.extractLsb' 0 3 = 0b111#3) ∨
    (x.extractLsb' 4 2 = 0b01#2 ∧ x.extractLsb' 2 1 = 1#1 ∧ x.extractLsb' 0 1 = 1#1) := by decide

/-- The phase words of no row are those with PHASE code 11. -/
theorem decode_q_unformable_iff : ∀ x : BitVec 3,
    decode (.q x) = .error .unformable ↔ x.extractLsb' 1 2 = 0b11#2 := by decide

/-- Only the mask's bits of PHASE's code decide whether a phase word is one of `11?`. -/
theorem phaseField_eq_three_iff : ∀ x : BitVec 3,
    x.extractLsb' 1 2 = 0b11#2 ↔ x &&& 0b110#3 = 0b110#3 := by decide

end Sys2Proof

namespace Sys2Proof.Machine

/-! ### The fields of Q (R70) -/

/-- PHASE has no code 11 (R20). -/
theorem Phase.code_ne_three (p : Phase) : p.code ≠ 0b11#2 := by cases p <;> decide

/-- Every other code is a phase's (R20). -/
theorem Phase.exists_code_eq {c : BitVec 2} (h : c ≠ 0b11#2) : ∃ p : Phase, p.code = c := by
  rcases two_bit_cases c with rfl | rfl | rfl | rfl
  · exact ⟨.powerOn, rfl⟩
  · exact ⟨.waitRelease, rfl⟩
  · exact ⟨.run, rfl⟩
  · exact absurd rfl h

/-- The upper field of a phase word is PHASE's code. -/
theorem phaseField_append : ∀ (c : BitVec 2) (sel : Bit), (c ++ sel : BitVec 3).extractLsb' 1 2 = c := by decide

/-- The lowest field of a phase word is SEL. -/
theorem selField_append : ∀ (c : BitVec 2) (sel : Bit), (c ++ sel : BitVec 3).extractLsb' 0 1 = sel := by decide

/-- A phase word is its two fields. -/
theorem append_phaseFields : ∀ x : BitVec 3, (x.extractLsb' 1 2 ++ x.extractLsb' 0 1 : BitVec 3) = x := by decide

theorem State.qWord_phase (s : State) : s.qWord.extractLsb' 1 2 = s.phase.code := phaseField_append _ _

theorem State.qWord_sel (s : State) : s.qWord.extractLsb' 0 1 = s.sample.1 := selField_append _ _

/-! ### The fields of W (R72 to R74) -/

/-- A tick word from its fields (R72). -/
def tickWord (mode : ModeCode) (ob any rst exp : Bit) : BitVec 6 := mode ++ ob ++ any ++ rst ++ exp

/-- W is the tick word of the state's own fields, with ANY and EXP as R74 and R73 form them. -/
theorem State.wWord_eq (s : State) :
    s.wWord = tickWord s.mode s.ob (anyBit s.sample.1 s.sample.2) s.sample.2
      (expBit s.cfg s.mode s.bTimer s.sample.1 s.sample.2) := rfl

@[simp] theorem tickWord_mode : ∀ (mode : ModeCode) (ob any rst exp : Bit),
    (tickWord mode ob any rst exp).extractLsb' 4 2 = mode := by decide

@[simp] theorem tickWord_ob : ∀ (mode : ModeCode) (ob any rst exp : Bit),
    (tickWord mode ob any rst exp).extractLsb' 3 1 = ob := by decide

@[simp] theorem tickWord_any : ∀ (mode : ModeCode) (ob any rst exp : Bit),
    (tickWord mode ob any rst exp).extractLsb' 2 1 = any := by decide

@[simp] theorem tickWord_rst : ∀ (mode : ModeCode) (ob any rst exp : Bit),
    (tickWord mode ob any rst exp).extractLsb' 1 1 = rst := by decide

@[simp] theorem tickWord_exp : ∀ (mode : ModeCode) (ob any rst exp : Bit),
    (tickWord mode ob any rst exp).extractLsb' 0 1 = exp := by decide

/-- A tick word is its five fields. -/
theorem tickWord_fields : ∀ x : BitVec 6, tickWord (x.extractLsb' 4 2) (x.extractLsb' 3 1) (x.extractLsb' 2 1)
    (x.extractLsb' 1 1) (x.extractLsb' 0 1) = x := by decide

/-- ANY is the logical or of the sample (R74). -/
theorem anyBit_eq_one_iff : ∀ sel rst : Bit, anyBit sel rst = 1#1 ↔ sel = 1#1 ∨ rst = 1#1 := by decide

/-- Where RST is 0, ANY is `sel` (R72). -/
theorem anyBit_zero : ∀ sel : Bit, anyBit sel 0#1 = sel := by decide

theorem bit_and_eq_one_iff : ∀ a b : Bit, a &&& b = 1#1 ↔ a = 1#1 ∧ b = 1#1 := by decide

theorem bit_not_eq_one_iff : ∀ a : Bit, ~~~a = 1#1 ↔ a = 0#1 := by decide

/-- When EXP is 1: in Idle while select alone is pressed, in Select while nothing is, if the increment passes the
mode's threshold (R73). -/
theorem expBit_eq_one_iff (c : Config) (mode : ModeCode) (b : Timer) (sel rst : Bit) :
    expBit c mode b sel rst = 1#1 ↔
      (mode = idleMode ∧ sel = 1#1 ∧ rst = 0#1 ∧ c.tLong < (b.toNat + 1) % 256) ∨
      (mode = selectMode ∧ sel = 0#1 ∧ rst = 0#1 ∧ c.tCommit < (b.toNat + 1) % 256) := by
  rw [← bTimer_succ_toNat, ← exceeds_eq_one, ← exceeds_eq_one, expBit]
  by_cases hidle : mode = idleMode
  · simp [hidle, bit_and_eq_one_iff, bit_not_eq_one_iff, and_assoc]
  · by_cases hselect : mode = selectMode
    · simp [hselect, bit_and_eq_one_iff, bit_not_eq_one_iff, and_assoc]
    · simp [hidle, hselect]

/-- The indicator update touches no field of W (R72, R100). -/
@[simp] theorem tickIndicator_wWord (s : State) : (tickIndicator s).wWord = s.wWord := by
  unfold tickIndicator; split <;> rfl

/-! ### The tick words that states form -/

/-- The tick words that R72 to R74 allow: ANY is 1 where RST is, and EXP is 1 only where the mode counts the sample. -/
abbrev FormableTickWord (x : BitVec 6) : Prop :=
  (x.extractLsb' 1 1 = 1#1 → x.extractLsb' 2 1 = 1#1) ∧
  (x.extractLsb' 0 1 = 0#1 ∨
    x.extractLsb' 4 2 = idleMode ∧ x.extractLsb' 2 1 = 1#1 ∧ x.extractLsb' 1 1 = 0#1 ∨
    x.extractLsb' 4 2 = selectMode ∧ x.extractLsb' 2 1 = 0#1 ∧ x.extractLsb' 1 1 = 0#1)

/-- Every state's tick word is one of them. -/
theorem State.wWord_formable (s : State) : FormableTickWord s.wWord := by
  rw [State.wWord_eq]
  simp only [FormableTickWord, tickWord_mode, tickWord_any, tickWord_rst, tickWord_exp]
  refine ⟨fun hrst => (anyBit_eq_one_iff _ _).2 (.inr hrst), ?_⟩
  rcases bit_cases (expBit s.cfg s.mode s.bTimer s.sample.1 s.sample.2) with hexp | hexp
  · exact .inl hexp
  · rcases (expBit_eq_one_iff _ _ _ _ _).1 hexp with ⟨hmode, hsel, hrst, -⟩ | ⟨hmode, hsel, hrst, -⟩
    · exact .inr (.inl ⟨hmode, by rw [hsel, hrst]; rfl, hrst⟩)
    · exact .inr (.inr ⟨hmode, by rw [hsel, hrst]; rfl, hrst⟩)

/-- They are the words of the well-formed tick branches, word by word. -/
theorem formable_iff_any_wellFormed : ∀ x : BitVec 6,
    FormableTickWord x ↔ (decode (.w x)).toOption.any Instr.wellFormed = true := by decide

/-- A tick word is formable exactly when the branch it decodes to is well-formed. -/
theorem formable_iff_wellFormed {x : BitVec 6} {i : Instr} (h : decode (.w x) = .ok i) :
    FormableTickWord x ↔ i.wellFormed = true := by
  rw [formable_iff_any_wellFormed, h]; rfl

/-- The branch that Q selects is well-formed, as every Q row is. -/
theorem phaseBranch_wellFormed {s : State} {i : Instr} (h : s.phaseBranch = .ok i) : i.wellFormed = true := by
  rw [State.phaseBranch_eq] at h
  injection h with h
  subst h
  (repeat' split) <;> rfl

/-- Outside RUN, Q selects one of the four boot branches. -/
theorem phaseBranch_ne_runTick {s : State} {i : Instr} (hp : s.phase ≠ .run) (h : s.phaseBranch = .ok i) (b : Bit) :
    i ≠ .runTick b := by
  rw [State.phaseBranch_eq] at h
  injection h with h
  subst h
  (repeat' split) <;> simp_all

/-- The next step's branch is well-formed and is not RUN_TICK: W's branch in RUN, a boot branch before. -/
theorem nextBranch_wellFormed {s : State} {i : Instr} (h : s.nextBranch = .ok i) :
    i.wellFormed = true ∧ ∀ b, i ≠ .runTick b := by
  by_cases hp : s.phase = .run
  · rw [State.nextBranch_run s hp] at h
    exact ⟨(formable_iff_wellFormed h).1 s.drawPins.wWord_formable, (tickBranch_faults s.drawPins i h).1⟩
  · rw [State.nextBranch_boot s hp] at h
    exact ⟨phaseBranch_wellFormed h, phaseBranch_ne_runTick (by simpa using hp) h⟩

/-! ### Placing a word -/

@[simp] theorem State.placeWord_cfg (s : State) (x : Option StepWord) : (s.placeWord x).cfg = s.cfg := by
  unfold State.placeWord
  (repeat' split) <;> rfl

/-- A placed phase word with a phase's code is the one the next step forms. -/
theorem State.placeWord_qWord (s : State) {x : BitVec 3} (h : x.extractLsb' 1 2 ≠ 0b11#2) :
    (s.placeWord (some (.q x))).drawPins.qWord = x := by
  obtain ⟨p, hp⟩ := Phase.exists_code_eq h
  have hphase : phaseOfCode (x.extractLsb' 1 2) = some p := hp ▸ phaseOfCode_code p
  simp only [State.placeWord, hphase]
  rw [State.drawPins_cons _ _ _ rfl]
  simp only [State.qWord, State.sample, hp, BitVec.not_not]
  exact append_phaseFields x

/-- A placed tick word is read by the next step in RUN. -/
theorem State.placeWord_w_phase (s : State) (x : BitVec 6) : (s.placeWord (some (.w x))).phase = .run := rfl

/-- The sample that a placed tick word brings: `rst` is its RST, `sel` its ANY where RST is 0 (R72). -/
theorem State.placeWord_w_sample (s : State) (x : BitVec 6) :
    (s.placeWord (some (.w x))).drawPins.sample = (x.extractLsb' 2 1 &&& ~~~x.extractLsb' 1 1, x.extractLsb' 1 1) := by
  rw [State.drawPins_cons _ _ _ rfl]
  rcases bit_cases (x.extractLsb' 1 1) with h | h <;> simp [State.placeWord, State.sample, State.rstN, h]

/-- ANY of the placed sample is the word's ANY, if the word's is 1 where its RST is (R74). -/
theorem anyBit_placed : ∀ any rst : Bit, (rst = 1#1 → any = 1#1) → anyBit (any &&& ~~~rst) rst = any := by decide

/-- With legal parameters a placed formable tick word is the one the next step forms. -/
theorem State.placeWord_wWord (s : State) (hc : s.cfg.wf = true) {x : BitVec 6} (h : FormableTickWord x) :
    (s.placeWord (some (.w x))).drawPins.wWord = x := by
  obtain ⟨hany, hexp⟩ := h
  have placedExp := expBit_timerFor s.cfg hc (x.extractLsb' 4 2) s.bTimer (x.extractLsb' 2 1 &&& ~~~x.extractLsb' 1 1)
    (x.extractLsb' 1 1) (x.extractLsb' 0 1) (by
      rcases hexp with hzero | ⟨hm, ha, hr⟩ | ⟨hm, ha, hr⟩
      · exact .inl hzero
      · exact .inr (.inl ⟨hm, by rw [ha, hr]; rfl, hr⟩)
      · exact .inr (.inr ⟨hm, by rw [ha, hr]; rfl, hr⟩))
  rw [State.wWord_eq, State.placeWord_w_sample]
  simp only [State.drawPins_mode, State.drawPins_ob, State.drawPins_cfg, State.drawPins_bTimer, State.placeWord]
  rw [anyBit_placed _ _ hany, placedExp, tickWord_fields]

/-- What Q selects, unless it is RUN_TICK, is the next step's branch. -/
theorem State.nextBranch_of_phaseBranch {s : State} {i : Instr} (h : s.drawPins.phaseBranch = .ok i)
    (hi : ∀ b, i ≠ .runTick b) : s.nextBranch = .ok i := by
  unfold State.nextBranch
  rw [h]
  split
  next b hb => exact absurd (Except.ok.inj hb) (hi b)
  next => rfl

/-- The word of a well-formed instruction other than RUN_TICK, placed in a state with legal parameters, makes it the
next step's branch. -/
theorem nextBranch_placeWord (s : State) (hc : s.cfg.wf = true) {i : Instr} (hw : i.wellFormed = true)
    (hi : ∀ b, i ≠ .runTick b) : (s.placeWord (some (encode i))).nextBranch = .ok i := by
  have hdecode := decode_encode i
  cases hx : encode i with
  | q x =>
    rw [hx] at hdecode
    have hcode : x.extractLsb' 1 2 ≠ 0b11#2 := fun hthree => by
      rw [(decode_q_unformable_iff x).2 hthree] at hdecode; cases hdecode
    refine State.nextBranch_of_phaseBranch ?_ hi
    rw [State.phaseBranch, State.placeWord_qWord s hcode, hdecode]
  | w x =>
    rw [hx] at hdecode
    rw [State.nextBranch_run _ (s.placeWord_w_phase x), State.tickBranch,
      s.placeWord_wWord hc ((formable_iff_wellFormed hdecode).2 hw), hdecode]

/-! ### Script lines (R79) -/

@[simp] theorem State.withSample_cfg (sel : Bit) (rst : Option Bit) (s : State) :
    (s.withSample sel rst).cfg = s.cfg := by cases rst <;> rfl

@[simp] theorem State.withSample_store (sel : Bit) (rst : Option Bit) (s : State) :
    (s.withSample sel rst).store = s.store := by cases rst <;> rfl

/-- The placed sample's `sel` is the one the step reads, whatever the reset line does. -/
theorem State.withSample_sel (sel : Bit) (rst : Option Bit) (s : State) :
    (s.withSample sel rst).drawPins.sample.1 = sel := by
  cases rst <;> simp [State.withSample, State.drawPins, State.sample]

/-- With the core's own drive released, the step reads both placed levels. -/
theorem State.withSample_sample (sel rst : Bit) (s : State) (h : s.rstOe = 0#1) :
    (s.withSample sel (some rst)).drawPins.sample = (sel, rst) := by
  rw [sample_of_stimulus (s.withSample sel (some rst)) ⟨~~~sel, ~~~rst⟩ s.stimulus rfl h]
  simp

@[simp] theorem placeLine_cfg (l : ScriptLine) (s : State) : (placeLine l s).cfg = s.cfg := by
  cases l <;> exact State.withSample_cfg _ _ _

/-- A POWERON line's step reads the line's `sel`. -/
theorem placeLine_powerOn_sel (idx theme : Byte) (sel : Bit) (s : State) :
    (placeLine (.powerOn idx theme sel) s).drawPins.sample.1 = sel :=
  State.withSample_sel sel none _

/-- A POWERON line's bytes are in the store, each in its own slot (R79). -/
theorem placeLine_powerOn_store (idx theme : Byte) (sel : Bit) (s : State) :
    (placeLine (.powerOn idx theme sel) s).store =
      Memory.write (Memory.write s.store s.cfg.slotIdx idx) s.cfg.slotTheme theme :=
  State.withSample_store _ _ _

/-- The kernal-index slot reads as the line's index byte: the theme's slot is another. -/
theorem placeLine_powerOn_idx (idx theme : Byte) (sel : Bit) (s : State) (hc : s.cfg.wf = true)
    (hm : Memory.wf s.store) : (placeLine (.powerOn idx theme sel) s).memRead .idx = idx := by
  obtain ⟨-, -, -, -, -, hslots⟩ := configWf s.cfg hc
  rw [State.memRead, placeLine_powerOn_store, placeLine_cfg]
  exact (Memory.read_write_of_ne _ _ _ _ hslots).trans (Memory.read_write_same _ _ _ hm)

/-- The theme slot reads as the line's theme byte, the one written last. -/
theorem placeLine_powerOn_theme (idx theme : Byte) (sel : Bit) (s : State) (hm : Memory.wf s.store) :
    (placeLine (.powerOn idx theme sel) s).memRead .theme = theme := by
  rw [State.memRead, placeLine_powerOn_store, placeLine_cfg]
  exact Memory.read_write_same _ _ _ (Memory.wf_write _ _ _ hm)

/-- A line off its phase is refused (R79, U3). -/
theorem runLine_mismatch (l : ScriptLine) (s : State) (h : s.phase ≠ linePhase l) :
    runLine l s = .refused .scriptMismatch := if_neg h

/-- A line at its phase is one step with its sample and bytes placed. -/
theorem runLine_match (l : ScriptLine) (s : State) (h : s.phase = linePhase l) :
    runLine l s = step (placeLine l s) := if_pos h

/-! ### The obligations -/

/-- Settles O1: one way by the instruction, the other by the row the word matches. -/
theorem decodeAndEncodeAgree : Obligations.DecodeAndEncodeAgree := ⟨decode_encode, encode_of_decode⟩

/-- Settles O4: the refused words by their forms; a state's words always select a branch. -/
theorem unformableWordsRefusedAndNeverFormed : Obligations.UnformableWordsRefusedAndNeverFormed := by
  refine ⟨decode_w_unformable_iff, decode_q_unformable_iff, by decide, fun s => ⟨?_, ?_⟩⟩
  · rw [State.tickBranch_eq]; exact nofun
  · rw [State.phaseBranch_eq]; exact nofun

/-- Settles O5: what a step forms is well-formed; a well-formed branch's word, placed at reset, is formed. -/
theorem stepsFormExactlyTheWellFormedInstructions : Obligations.StepsFormExactlyTheWellFormedInstructions := by
  refine ⟨fun s i => nextBranch_wellFormed, fun i hw hi => ⟨State.reset.placeWord (some (encode i)), ?_, ?_⟩⟩
  · rw [State.placeWord_cfg]; exact reset_atPowerOn.inv.configLegal
  · exact nextBranch_placeWord State.reset reset_atPowerOn.inv.configLegal hw hi

/-- Settles O6: EXP by the mode, and W's lowest field, which the indicator update leaves alone. -/
theorem expComparesTheIncrementedTimer : Obligations.ExpComparesTheIncrementedTimer := by
  refine ⟨expBit_eq_one_iff, fun s => ?_⟩
  rw [tickIndicator_wWord, State.wWord_eq, tickWord_exp]

/-- Settles O50: a line's refusal, its step, and what the step then reads of it. -/
theorem scriptLinesMatchThePhase : Obligations.ScriptLinesMatchThePhase := by
  refine ⟨runLine_mismatch, fun l s hp hc => ⟨runLine_match l s hp, ?_⟩, fun sel rst s => s.withSample_sample sel rst,
    fun sel s => s.withSample_sel sel none, fun idx theme sel s hc hm => ⟨placeLine_powerOn_sel idx theme sel s,
      placeLine_powerOn_idx idx theme sel s hc hm, placeLine_powerOn_theme idx theme sel s hm⟩⟩
  obtain ⟨t, ht, -⟩ := step_completes (placeLine l s) (by rw [placeLine_cfg]; exact hc)
  exact ⟨t, (runLine_match l s hp).trans ht⟩

/-- Settles O52: the placed word is formed and decoded back, and with legal parameters every step completes. -/
theorem placedWordIsTheNextBranch : Obligations.PlacedWordIsTheNextBranch := by
  intro s i hc hw hi
  obtain ⟨t, ht, -⟩ := step_completes (s.placeWord (some (encode i))) (by rw [State.placeWord_cfg]; exact hc)
  exact ⟨nextBranch_placeWord s hc hw hi, t, ht⟩

/-- Settles O2: the rows of R71's table, its refused words, and PHASE's codes. -/
theorem phaseWordSelectsOneBranch : Obligations.PhaseWordSelectsOneBranch := by
  refine ⟨decode_q_row 0 _ rfl, decode_q_row 1 _ rfl, decode_q_row 2 _ rfl, decode_q_row 3 _ rfl, decode_q_row 4,
    fun x hx => ?_, fun s => ?_, fun _ _ _ => rfl⟩
  · rw [decode_q_unformable_iff, phaseField_eq_three_iff, hx]
  · rw [State.qWord_phase]; exact s.phase.code_ne_three

/-- Settles O3: each row of R75's table by its place. -/
theorem tickWordSelectsOneBranch : Obligations.TickWordSelectsOneBranch :=
  ⟨fun x => ⟨decode_w_row 0 x, decode_w_row 1 x, decode_w_row 2 x, decode_w_row 3 x, decode_w_row 4 x,
    decode_w_row 5 x, decode_w_row 6 x, decode_w_row 7 x, decode_w_row 8 x, decode_w_row 9 x, decode_w_row 10 x⟩,
    wTable_disjoint⟩

/-- Settles O7: the fields of the two words, and ANY. -/
theorem decodeWordsHoldTheirFields : Obligations.DecodeWordsHoldTheirFields := by
  intro s
  rw [State.wWord_eq, tickWord_mode, tickWord_ob, tickWord_any, tickWord_rst, tickWord_exp]
  exact ⟨s.qWord_phase, s.qWord_sel, rfl, rfl, anyBit_eq_one_iff _ _, rfl, rfl,
    fun hrst => by rw [hrst, anyBit_zero]⟩

/-- Settles O8: each decoded word by its row, the last by R76's forms. -/
theorem writtenOutWordsDecode : Obligations.WrittenOutWordsDecode :=
  ⟨decode_q_row 3 _ rfl, decode_q_row 4 _ rfl, decode_w_row 2 _ rfl, decode_w_row 3 _ rfl, decode_w_row 6 _ rfl,
    decode_w_row 9 _ rfl, decode_w_row 10 _ rfl,
    (decode_w_unformable_iff _).2 (.inr (.inr (.inr ⟨rfl, rfl, rfl⟩)))⟩

/-- Settles O51: the expansion's own equations. -/
theorem pseudoStepsExpand : Obligations.PseudoStepsExpand := fun _ _ => ⟨rfl, rfl, rfl, rfl, rfl⟩

end Sys2Proof.Machine
end

section
/-! PROOFS of the input sampler family (O9), spec/40_input_sampler.md. A reading depends on the line's level
alone, so what the levels are decides it: the reset line's by its open-drain law, both by where the step's levels come
from. -/

namespace Sys2Proof.Machine

/-- `sel` is the select line's level inverted (R90). -/
theorem State.sample_sel (s : State) : s.sample.1 = ~~~s.selN := rfl

/-- While the core pulls the reset line low, `rst` reads active, whatever the outside gives (R91). -/
theorem State.sample_rst_driven (s : State) (h : s.rstOe = 1#1) : s.sample.2 = 1#1 := by
  rw [State.sample, s.rstN_driven h]; rfl

/-- Once the reset line is released, `rst` is the outside's level inverted (R90, R91). -/
theorem State.sample_rst_released (s : State) (h : s.rstOe = 0#1) : s.sample.2 = ~~~s.rstOutside := by
  rw [State.sample, s.rstN_released h]

/-- Settles O9: each line's reading by its level, and the step's levels by whether one is listed. -/
theorem sampleReadsTheLineLevels : Obligations.SampleReadsTheLineLevels :=
  ⟨fun s => ⟨s.sample_sel, s.sample_rst_driven, s.sample_rst_released⟩, State.drawPins_cons, State.drawPins_nil⟩

end Sys2Proof.Machine
end

section
/-! PROOFS of the selection state machine's visits and transitions (O42, O43, O37, O38), spec/41_selection_fsm.md. The
rules speak of few registers, and of the events only through pulses and writes: `Fsm` keeps just these. Each branch is an
equation on it (`Fsm.after`), and one lemma (`step_fsm`) says that a step in RUN follows the equation of the branch that
W selects. What W has checked when it selects a branch is said once (`State.Selects`). -/

namespace Sys2Proof.Machine

/-! ### What W selects (R75, R102 to R115) -/

/-- The increment of ButtonTimer in the numbers of the statements (R73). -/
theorem bTimer_succ_eq (b : Timer) : b + 1#8 = BitVec.ofNat 8 ((b.toNat + 1) % 256) :=
  BitVec.eq_of_toNat_eq (by rw [bTimer_succ_toNat, BitVec.toNat_ofNat, Nat.mod_mod])

/-- The step to the next bank as a number (R110). -/
theorem idx_succ_toNat (i : Bank) : (i + 1#2).toNat = (i.toNat + 1) % 4 := by simp [BitVec.toNat_add]

/-- The step to the next bank in the numbers of the statements (R110). -/
theorem idx_succ_eq (i : Bank) : i + 1#2 = BitVec.ofNat 2 ((i.toNat + 1) % 4) :=
  BitVec.eq_of_toNat_eq (by rw [idx_succ_toNat, BitVec.toNat_ofNat, Nat.mod_mod])

/-- The Idle half of W's table. -/
theorem State.tickBranch_idle {s : State} (hm : s.mode = idleMode) :
    s.tickBranch = .ok (
      if s.sample.2 = 1#1 then .idleExtreset s.ob
      else if s.sample.1 = 1#1 then
        if s.cfg.tLong < (s.bTimer.toNat + 1) % 256 then .idleLongpress s.ob else .idleHold s.ob
      else .idleRest s.ob) := by
  rw [State.tickBranch_eq, if_pos hm, bTimer_succ_toNat]

/-- The Select half of W's table. -/
theorem State.tickBranch_select {s : State} (hm : s.mode = selectMode) :
    s.tickBranch = .ok (
      if s.sample.1 = 1#1 ∨ s.sample.2 = 1#1 then
        if s.ob = 1#1 then .selAdvance s.sample.2 else .selHeld s.sample.2
      else if s.cfg.tCommit < (s.bTimer.toNat + 1) % 256 then
        if s.ob = 1#1 then .selCommit else .selArmCommit
      else if s.ob = 1#1 then .selQuiet else .selArm) := by
  have hidle : s.mode ≠ idleMode := by rw [hm]; decide
  rw [State.tickBranch_eq, if_neg hidle, if_pos hm, bTimer_succ_toNat]
  simp only [anyBit_eq_one_iff]

/-- The invalid modes' row of W's table. -/
theorem State.tickBranch_invalid {s : State} (hm : s.mode = 0b10#2 ∨ s.mode = 0b11#2) :
    s.tickBranch =
      .ok (.tickFault (wordBit 0 s.mode) s.ob (anyBit s.sample.1 s.sample.2) s.sample.2 0#1) := by
  obtain ⟨hidle, hselect⟩ := (invalidMode_iff s.mode).2 hm
  rw [State.tickBranch_eq, if_neg hidle, if_neg hselect]

/-- MODE is Idle, Select or one of the two invalid codes (R21). -/
theorem mode_cases (m : ModeCode) : m = idleMode ∨ m = selectMode ∨ (m = 0b10#2 ∨ m = 0b11#2) :=
  two_bit_cases m

theorem tickBranch_idleRest {s : State} (hm : s.mode = idleMode) (hs : s.sample = (0#1, 0#1)) :
    s.tickBranch = .ok (.idleRest s.ob) := by
  rw [State.tickBranch_idle hm, hs]; rfl

theorem tickBranch_idleHold {s : State} (hm : s.mode = idleMode) (hs : s.sample = (1#1, 0#1))
    (hb : (s.bTimer.toNat + 1) % 256 ≤ s.cfg.tLong) : s.tickBranch = .ok (.idleHold s.ob) := by
  simp [State.tickBranch_idle hm, hs, Nat.not_lt.2 hb]

theorem tickBranch_idleLongpress {s : State} (hm : s.mode = idleMode) (hs : s.sample = (1#1, 0#1))
    (hb : s.cfg.tLong < (s.bTimer.toNat + 1) % 256) : s.tickBranch = .ok (.idleLongpress s.ob) := by
  simp [State.tickBranch_idle hm, hs, hb]

theorem tickBranch_idleExtreset {s : State} (hm : s.mode = idleMode) (hs : s.sample.2 = 1#1) :
    s.tickBranch = .ok (.idleExtreset s.ob) := by
  rw [State.tickBranch_idle hm, if_pos hs]

theorem tickBranch_selAdvance {s : State} (hm : s.mode = selectMode) (ho : s.ob = 1#1)
    (hs : s.sample.1 = 1#1 ∨ s.sample.2 = 1#1) : s.tickBranch = .ok (.selAdvance s.sample.2) := by
  rw [State.tickBranch_select hm, if_pos hs, if_pos ho]

theorem tickBranch_selHeld {s : State} (hm : s.mode = selectMode) (ho : s.ob = 0#1)
    (hs : s.sample.1 = 1#1 ∨ s.sample.2 = 1#1) : s.tickBranch = .ok (.selHeld s.sample.2) := by
  rw [State.tickBranch_select hm, if_pos hs, if_neg (by simp [ho])]

theorem tickBranch_selArm {s : State} (hm : s.mode = selectMode) (ho : s.ob = 0#1) (hs : s.sample = (0#1, 0#1))
    (hb : (s.bTimer.toNat + 1) % 256 ≤ s.cfg.tCommit) : s.tickBranch = .ok .selArm := by
  simp [State.tickBranch_select hm, hs, ho, Nat.not_lt.2 hb]

theorem tickBranch_selQuiet {s : State} (hm : s.mode = selectMode) (ho : s.ob = 1#1) (hs : s.sample = (0#1, 0#1))
    (hb : (s.bTimer.toNat + 1) % 256 ≤ s.cfg.tCommit) : s.tickBranch = .ok .selQuiet := by
  simp [State.tickBranch_select hm, hs, ho, Nat.not_lt.2 hb]

theorem tickBranch_selCommit {s : State} (hm : s.mode = selectMode) (ho : s.ob = 1#1) (hs : s.sample = (0#1, 0#1))
    (hb : s.cfg.tCommit < (s.bTimer.toNat + 1) % 256) : s.tickBranch = .ok .selCommit := by
  simp [State.tickBranch_select hm, hs, ho, hb]

theorem tickBranch_selArmCommit {s : State} (hm : s.mode = selectMode) (ho : s.ob = 0#1)
    (hs : s.sample = (0#1, 0#1)) (hb : s.cfg.tCommit < (s.bTimer.toNat + 1) % 256) :
    s.tickBranch = .ok .selArmCommit := by
  simp [State.tickBranch_select hm, hs, ho, hb]

/-- What W has checked of the registers when it selects a branch: the mode, the latch and the threshold (R75). -/
def State.Selects (s : State) : Instr → Prop
  | .idleRest _ | .idleExtreset _ => s.mode = idleMode
  | .idleHold _ => s.mode = idleMode ∧ (s.bTimer.toNat + 1) % 256 ≤ s.cfg.tLong
  | .idleLongpress _ => s.mode = idleMode ∧ s.cfg.tLong < (s.bTimer.toNat + 1) % 256
  | .selArm => s.mode = selectMode ∧ s.ob = 0#1 ∧ (s.bTimer.toNat + 1) % 256 ≤ s.cfg.tCommit
  | .selArmCommit => s.mode = selectMode ∧ s.ob = 0#1 ∧ s.cfg.tCommit < (s.bTimer.toNat + 1) % 256
  | .selHeld _ => s.mode = selectMode ∧ s.ob = 0#1
  | .selQuiet => s.mode = selectMode ∧ s.ob = 1#1 ∧ (s.bTimer.toNat + 1) % 256 ≤ s.cfg.tCommit
  | .selCommit => s.mode = selectMode ∧ s.ob = 1#1 ∧ s.cfg.tCommit < (s.bTimer.toNat + 1) % 256
  | .selAdvance _ => s.mode = selectMode ∧ s.ob = 1#1
  | .tickFault _ _ _ _ _ => s.mode = 0b10#2 ∨ s.mode = 0b11#2
  | .bootPlain | .bootTheme | .waitDone | .waitHold | .runTick _ => False

/-- The selected branch's conditions hold; so no boot branch and no tick is ever selected by W. -/
theorem State.selects_of_tickBranch {s : State} {i : Instr} (h : s.tickBranch = .ok i) : s.Selects i := by
  rcases mode_cases s.mode with hm | hm | hm
  · rw [State.tickBranch_idle hm] at h
    injection h with h
    subst h
    split_ifs with hrst hsel hexp
    · exact hm
    · exact ⟨hm, hexp⟩
    · exact ⟨hm, Nat.not_lt.1 hexp⟩
    · exact hm
  · rw [State.tickBranch_select hm] at h
    injection h with h
    subst h
    split_ifs with hany armed hexp armed armed
    · exact ⟨hm, armed⟩
    · exact ⟨hm, (bit_cases s.ob).resolve_right armed⟩
    · exact ⟨hm, armed, hexp⟩
    · exact ⟨hm, (bit_cases s.ob).resolve_right armed, hexp⟩
    · exact ⟨hm, armed, Nat.not_lt.1 hexp⟩
    · exact ⟨hm, (bit_cases s.ob).resolve_right armed, Nat.not_lt.1 hexp⟩
  · rw [State.tickBranch_invalid hm] at h
    injection h with h
    subst h
    exact hm

/-- The step's draw of the levels touches nothing of what W checks in the registers. -/
theorem State.selects_drawPins {s : State} {i : Instr} : s.drawPins.Selects i ↔ s.Selects i := by
  cases i <;> simp [State.Selects]

/-- In RUN the next branch's conditions hold before the step. -/
theorem State.selects_of_nextBranch {s : State} {i : Instr} (hp : s.phase = .run) (h : s.nextBranch = .ok i) :
    s.Selects i := by
  rw [State.nextBranch_run s hp] at h
  exact State.selects_drawPins.1 (State.selects_of_tickBranch h)

/-! ### The registers the selection rules speak of -/

/-- What the rules of the selection state machine speak of: its registers, and the pulses and writes so far. -/
structure Fsm where
  /-- the parameters -/
  cfg : Config
  /-- PHASE -/
  phase : Phase
  /-- MODE -/
  mode : ModeCode
  /-- BTIMER -/
  bTimer : Timer
  /-- OB -/
  ob : Bit
  /-- IGN -/
  ign : Bit
  /-- IDX -/
  idx : Bank
  /-- THEME -/
  theme : Bit
  /-- LASTSAVED -/
  lastSaved : Bank
  /-- RST_OE -/
  rstOe : Bit
  /-- the reset pulses so far -/
  pulses : Nat
  /-- the store writes so far -/
  writes : List Host.Cell

/-- The state as the selection rules see it. -/
def State.fsm (s : State) : Fsm where
  cfg := s.cfg
  phase := s.phase
  mode := s.mode
  bTimer := s.bTimer
  ob := s.ob
  ign := s.ign
  idx := s.idx
  theme := s.theme
  lastSaved := s.lastSaved
  rstOe := s.rstOe
  pulses := pulses s.trace
  writes := storeWrites s.trace

/-- `EnterSelect` on the registers (R101). -/
def Fsm.enterSelect (ign : Bit) (v : Fsm) : Fsm :=
  { v with mode := selectMode, bTimer := 0#8, ob := 0#1, ign := ign }

/-- `Commit` on the registers (R112). -/
def Fsm.commit (v : Fsm) : Fsm :=
  { v with
    mode := idleMode
    bTimer := 0#8
    lastSaved := v.idx
    rstOe := if v.ign = 0#1 then 0#1 else v.rstOe
    pulses := v.pulses + if v.ign = 0#1 then 1 else 0
    writes := v.writes ++ if v.idx ≠ v.lastSaved then [(v.cfg.slotIdx, zext8 v.idx)] else [] }

/-- A tick branch on the registers (R102 to R115); the other branches are no tick branches. -/
def Fsm.after (i : Instr) (v : Fsm) : Fsm :=
  match i with
  | .idleRest _ | .selHeld _ => { v with bTimer := 0#8 }
  | .idleHold _ | .selQuiet => { v with bTimer := v.bTimer + 1#8 }
  | .idleLongpress _ => v.enterSelect 0#1
  | .idleExtreset _ => v.enterSelect 1#1
  | .selArm => { v with ob := 1#1, bTimer := v.bTimer + 1#8 }
  | .selAdvance _ => { v with ob := 0#1, ign := 0#1, idx := v.idx + 1#2, bTimer := 0#8 }
  | .selCommit => v.commit
  | .selArmCommit => { v.commit with ob := 1#1 }
  | .tickFault _ _ _ _ _ | .bootPlain | .bootTheme | .waitDone | .waitHold | .runTick _ => v

/-- Events that drive no reset line and write nothing are not seen by the selection rules. -/
theorem fsm_append {s : State} {ev : List Event} (hr : rstDrives ev = []) (hw : storeWrites ev = []) :
    { s with trace := s.trace ++ ev }.fsm = s.fsm := by
  simp [State.fsm, pulses, rstDrives_append, storeWrites_append, hr, hw]

@[simp] theorem drawPins_fsm (s : State) : s.drawPins.fsm = s.fsm := by simp [State.fsm]

@[simp] theorem sleep_fsm (ms : Nat) (s : State) : (s.sleep ms).fsm = s.fsm := fsm_append rfl rfl

@[simp] theorem driveLed_fsm (b : Bit) (s : State) : (s.driveLed b).fsm = s.fsm :=
  fsm_append (s := { s with ledOut := b }) rfl rfl

@[simp] theorem driveAddr_fsm (v : Bank) (s : State) : (s.driveAddr v).fsm = s.fsm :=
  fsm_append (s := { s with addrOut := v }) rfl rfl

@[simp] theorem tickIndicator_fsm (s : State) : (tickIndicator s).fsm = s.fsm := by
  unfold tickIndicator
  split
  · exact driveLed_fsm _ s
  · rfl

@[simp] theorem tickClose_fsm (s : State) : (tickClose s).fsm = s.fsm := sleep_fsm _ s

@[simp] theorem setIndex_fsm (i : Bank) (s : State) : (setIndex i s).fsm = s.fsm :=
  (sleep_fsm _ _).trans (driveAddr_fsm i s)

/-- The double blink is light alone. -/
theorem enterSelect_fsm (ign : Bit) (s : State) : (enterSelect ign s).fsm = s.fsm.enterSelect ign := by
  rw [enterSelect, feedbackBlink, blink_eq]
  exact fsm_append (s := { s with mode := selectMode, bTimer := 0#8, ob := 0#1, ign := ign })
    (blinkEvents_rstDrives _ _ _) (blinkEvents_storeWrites _ _ _)

/-- A commit's pulse and write, as its events show them. -/
theorem commitEvents_pulses (s : State) : pulses (commitEvents s) = if s.ign = 0#1 then 1 else 0 := by
  by_cases hi : s.ign = 0#1 <;> by_cases hx : s.idx = s.lastSaved <;>
    simp [commitEvents, hi, hx, pulses, rstDrives, pulseEvents]

theorem commitEvents_storeWrites (s : State) : storeWrites (commitEvents s) =
    if s.idx ≠ s.lastSaved then [(s.cfg.slotIdx, zext8 s.idx)] else [] := by
  by_cases hi : s.ign = 0#1 <;> by_cases hx : s.idx = s.lastSaved <;>
    simp [commitEvents, hi, hx, storeWrites, pulseEvents]

theorem commit_fsm (s : State) : (commit s).fsm = s.fsm.commit := by
  simp only [commit_eq, State.fsm, pulses_append, storeWrites_append, commitEvents_pulses, commitEvents_storeWrites]
  rfl

/-- Each tick branch does to the registers what `Fsm.after` says. -/
theorem exec_fsm {s u : State} {i : Instr} (hi : s.Selects i) (h : exec i s = .next u) : u.fsm = s.fsm.after i := by
  cases i with
  | bootPlain | bootTheme | waitDone | waitHold | runTick sel => exact hi.elim
  | idleRest ob | idleHold ob | selArm | selHeld rst | selQuiet => cases h; rfl
  | idleLongpress ob => cases h; exact enterSelect_fsm 0#1 _
  | idleExtreset ob => cases h; exact enterSelect_fsm 1#1 s
  | selCommit => cases h; exact commit_fsm _
  | selArmCommit => cases h; exact commit_fsm _
  | selAdvance rst =>
    cases h
    have driven := setIndex_fsm (s.idx + 1#2) { s with ob := 0#1, ign := 0#1, idx := s.idx + 1#2 }
    exact congrArg (fun v : Fsm => { v with bTimer := 0#8 }) driven
  | tickFault mode0 ob any rst exp =>
    cases h
    exact (driveAddr_fsm _ _).trans (driveLed_fsm _ _)

/-- A tick in RUN that answers is the indicator update, the next branch and the base sleep, from the drawn levels. -/
theorem step_run_next {s t : State} {i : Instr} (hp : s.phase = .run) (hstep : step s = .next t)
    (hi : s.nextBranch = .ok i) : ∃ u, exec i (tickIndicator s.drawPins) = .next u ∧ t = tickClose u := by
  obtain ⟨hc, -⟩ := step_next s t hstep
  rw [State.nextBranch_run s hp] at hi
  rw [step_of_run s hc hp, execRunTick_eq _ _ i hi] at hstep
  exact (thenDo_next _ _ t).1 hstep

/-- A step in RUN does to the registers what its branch does. -/
theorem step_fsm {s t : State} {i : Instr} (hp : s.phase = .run) (hstep : step s = .next t)
    (hi : s.nextBranch = .ok i) : t.fsm = s.fsm.after i := by
  obtain ⟨u, hu, rfl⟩ := step_run_next hp hstep hi
  have selected : (tickIndicator s.drawPins).Selects i := by
    rw [State.nextBranch_run s hp, ← tickIndicator_tickBranch] at hi
    exact State.selects_of_tickBranch hi
  rw [tickClose_fsm, exec_fsm selected hu, tickIndicator_fsm, drawPins_fsm]

/-- With legal parameters a tick in RUN answers, uses up its listed sample, and does what W's branch does. -/
theorem step_sampled {s : State} {p : Pins} {rest : List Pins} {i : Instr} (hc : s.cfg.wf = true)
    (hp : s.phase = .run) (hstim : s.stimulus = p :: rest) (hi : s.drawPins.tickBranch = .ok i) :
    ∃ t, step s = .next t ∧ t.stimulus = rest ∧ t.fsm = s.fsm.after i := by
  obtain ⟨t, ht, hext⟩ := step_completes s hc
  refine ⟨t, ht, ?_, step_fsm hp ht ((s.nextBranch_run hp).trans hi)⟩
  rw [hext.stimulus, State.drawPins_stimulus, hstim]
  rfl

/-! ### A visit of Select (R114) -/

/-- A path of two parts. -/
theorem Path.of_append {s u : State} {is js : List Instr} (h : Path s (is ++ js) u) :
    ∃ t, Path s is t ∧ Path t js u := by
  induction is generalizing s with
  | nil => exact ⟨s, .nil s, h⟩
  | cons i is ih =>
    cases h with
    | cons hi hstep hrest =>
      obtain ⟨t, hfirst, hlast⟩ := ih hrest
      exact ⟨t, .cons hi hstep hfirst, hlast⟩

/-- A tick that stays in Select neither pulses nor leaves RUN, and IGN falls with the advance edge (R106 to R110). -/
theorem Fsm.after_staysInSelect {i : Instr} (hi : staysInSelect i = true) (v : Fsm) :
    (v.after i).phase = v.phase ∧ (v.after i).pulses = v.pulses ∧
      (v.after i).ign = if isAdvance i then 0#1 else v.ign := by
  cases i with
  | selArm | selHeld rst | selQuiet | selAdvance rst => exact ⟨rfl, rfl, rfl⟩
  | bootPlain | bootTheme | waitDone | waitHold | runTick sel | idleRest ob | idleHold ob | idleLongpress ob
  | idleExtreset ob | selArmCommit | selCommit | tickFault mode0 ob any rst exp => cases hi

/-- So over any number of them, IGN falls if there was an advance edge and stays otherwise. -/
theorem Path.staysInSelect {a b : State} {mids : List Instr} (h : Path a mids b) (hp : a.phase = .run)
    (hstay : ∀ m ∈ mids, staysInSelect m = true) :
    b.phase = .run ∧ pulses b.trace = pulses a.trace ∧ b.ign = if mids.any isAdvance then 0#1 else a.ign := by
  induction h with
  | nil s => exact ⟨hp, rfl, rfl⟩
  | @cons s t u i is hi hstep _ ih =>
    obtain ⟨hfirst, hrest⟩ := List.forall_mem_cons.1 hstay
    have effect := step_fsm hp hstep hi
    obtain ⟨hphase, hpulses, hign⟩ := Fsm.after_staysInSelect hfirst s.fsm
    rw [← effect] at hphase hpulses hign
    obtain ⟨uphase, upulses, uign⟩ := ih (hphase.trans hp) hrest
    refine ⟨uphase, upulses.trans hpulses, uign.trans ?_⟩
    rw [show t.ign = _ from hign, List.any_cons]
    cases isAdvance i <;> cases is.any isAdvance <;> rfl

/-- A commit pulses unless IGN suppresses it (R112). -/
theorem Fsm.after_commit_pulses {i : Instr} (hi : isCommit i = true) (v : Fsm) :
    (v.after i).pulses = v.pulses + if v.ign = 0#1 then 1 else 0 := by
  cases i with
  | selCommit | selArmCommit => rfl
  | bootPlain | bootTheme | waitDone | waitHold | runTick sel | idleRest ob | idleHold ob | idleLongpress ob
  | idleExtreset ob | selArm | selHeld rst | selQuiet | selAdvance rst | tickFault mode0 ob any rst exp => cases hi

/-- Settles O42: the entry sets IGN, the ticks in Select keep it up to an advance edge, the commit reads it. -/
theorem selectVisitPulsesUnlessSuppressed : Obligations.SelectVisitPulsesUnlessSuppressed := by
  intro s t entry last mids ob hp hentry hstay hlast hpath
  obtain ⟨b, hvisit, hcommit⟩ := Path.of_append hpath
  cases hvisit with
  | @cons _ a _ _ _ hi hstep hmids =>
  cases hcommit with
  | cons hi' hstep' hnil =>
  cases hnil
  have entered := step_fsm hp hstep hi
  have aphase : a.phase = .run := by rcases hentry with rfl | rfl <;> exact (congrArg Fsm.phase entered).trans hp
  have apulses : pulses a.trace = pulses s.trace := by
    rcases hentry with rfl | rfl <;> exact congrArg Fsm.pulses entered
  obtain ⟨bphase, bpulses, bign⟩ := hmids.staysInSelect aphase hstay
  have tpulses : pulses t.trace = pulses b.trace + if b.ign = 0#1 then 1 else 0 :=
    (congrArg Fsm.pulses (step_fsm bphase hstep' hi')).trans (Fsm.after_commit_pulses hlast b.fsm)
  rw [tpulses, bpulses, apulses, bign]
  rcases hentry with rfl | rfl
  · have aign : a.ign = 1#1 := congrArg Fsm.ign entered
    cases mids.any isAdvance <;> simp [aign]
  · have aign : a.ign = 0#1 := congrArg Fsm.ign entered
    simp [aign]

/-! ### Runs of like ticks -/

/-- A low level on either line reads as pressed, whether or not the core drives the reset line too (R90, R91). -/
theorem sample_of_low {s : State} {p : Pins} {rest : List Pins} (h : s.stimulus = p :: rest)
    (hlow : p.selN = 0#1 ∨ p.rstN = 0#1) : s.drawPins.sample.1 = 1#1 ∨ s.drawPins.sample.2 = 1#1 := by
  rw [State.drawPins_cons s p rest h]
  rcases hlow with hsel | hrst
  · exact .inl (by simp [State.sample, hsel])
  · exact .inr (by simp [State.sample, State.rstN, hrst])

/-- A pressed tick of Select clears OB and ButtonTimer; only the advance edge moves more, IGN and IDX (R107, R110). -/
theorem step_pressed {s : State} {p : Pins} {rest : List Pins} (hc : s.cfg.wf = true) (hp : s.phase = .run)
    (hm : s.mode = selectMode) (hstim : s.stimulus = p :: rest) (hlow : p.selN = 0#1 ∨ p.rstN = 0#1) :
    ∃ t, step s = .next t ∧ t.stimulus = rest ∧
      t.fsm = { s.fsm with ob := 0#1, bTimer := 0#8, ign := t.ign, idx := t.idx } := by
  have pressed := sample_of_low hstim hlow
  rcases bit_cases s.ob with ho | ho
  · have held := tickBranch_selHeld (s.drawPins_mode.trans hm) (s.drawPins_ob.trans ho) pressed
    obtain ⟨t, ht, hrest, effect⟩ := step_sampled hc hp hstim held
    have hign : t.ign = s.ign := congrArg Fsm.ign effect
    have hidx : t.idx = s.idx := congrArg Fsm.idx effect
    exact ⟨t, ht, hrest, by rw [effect, hign, hidx, ← ho]; rfl⟩
  · have advance := tickBranch_selAdvance (s.drawPins_mode.trans hm) (s.drawPins_ob.trans ho) pressed
    obtain ⟨t, ht, hrest, effect⟩ := step_sampled hc hp hstim advance
    have hign : t.ign = 0#1 := congrArg Fsm.ign effect
    have hidx : t.idx = s.idx + 1#2 := congrArg Fsm.idx effect
    exact ⟨t, ht, hrest, by rw [effect, hign, hidx]; rfl⟩

/-- Any number of pressed ticks of Select. -/
theorem runSteps_pressed (pins : List Pins) {s : State} {rest : List Pins} (hc : s.cfg.wf = true)
    (hp : s.phase = .run) (hm : s.mode = selectMode) (hstim : s.stimulus = pins ++ rest)
    (hlow : ∀ p ∈ pins, p.selN = 0#1 ∨ p.rstN = 0#1) :
    ∃ t, runSteps pins.length s = .next t ∧
      t.fsm = { s.fsm with
        ob := if pins = [] then s.ob else 0#1, bTimer := if pins = [] then s.bTimer else 0#8,
        ign := t.ign, idx := t.idx } := by
  induction pins generalizing s with
  | nil => exact ⟨s, rfl, rfl⟩
  | cons p pins ih =>
    obtain ⟨hfirst, hrest⟩ := List.forall_mem_cons.1 hlow
    obtain ⟨a, ha, astim, afsm⟩ := step_pressed hc hp hm hstim hfirst
    have acfg : a.cfg = s.cfg := congrArg Fsm.cfg afsm
    have aob : a.ob = 0#1 := congrArg Fsm.ob afsm
    have atimer : a.bTimer = 0#8 := congrArg Fsm.bTimer afsm
    obtain ⟨t, ht, tfsm⟩ := ih (acfg ▸ hc) ((congrArg Fsm.phase afsm).trans hp) ((congrArg Fsm.mode afsm).trans hm)
      astim hrest
    refine ⟨t, by rw [List.length_cons, runSteps_succ _ _ _ ha, ht], ?_⟩
    rw [tfsm, aob, atimer, afsm, ite_self, ite_self]
    simp

/-- In mode `m`, with the reset line released, a tick that samples the levels `p` counts up to `limit` and moves
nothing else but OB, by `latch`. -/
def CountsAt (m : ModeCode) (p : Pins) (limit : Config → Nat) (latch : Bit → Bit) : Prop :=
  ∀ (s : State) (rest : List Pins), s.cfg.wf = true → s.phase = .run → s.mode = m → s.rstOe = 0#1 →
    s.stimulus = p :: rest → s.bTimer.toNat + 1 ≤ limit s.cfg →
    ∃ t, step s = .next t ∧ t.stimulus = rest ∧ t.fsm = { s.fsm with ob := latch s.ob, bTimer := s.bTimer + 1#8 }

/-- A released tick of Select within the quiet time arms the latch and counts (R106, R108). -/
theorem countsAt_quiet : CountsAt selectMode ⟨1#1, 1#1⟩ Config.tCommit fun _ => 1#1 := by
  intro s rest hc hp hm hr hstim hb
  have released : s.drawPins.sample = (0#1, 0#1) := sample_of_stimulus s _ _ hstim hr
  have within : (s.drawPins.bTimer.toNat + 1) % 256 ≤ s.drawPins.cfg.tCommit := by
    rw [State.drawPins_bTimer, State.drawPins_cfg]; exact (Nat.mod_le _ _).trans hb
  rcases bit_cases s.ob with ho | ho
  · have arm := tickBranch_selArm (s.drawPins_mode.trans hm) (s.drawPins_ob.trans ho) released within
    exact step_sampled hc hp hstim arm
  · have quiet := tickBranch_selQuiet (s.drawPins_mode.trans hm) (s.drawPins_ob.trans ho) released within
    obtain ⟨t, ht, hrest, effect⟩ := step_sampled hc hp hstim quiet
    exact ⟨t, ht, hrest, by rw [effect, ← ho]; rfl⟩

/-- A pressed tick of Idle within the long-press threshold counts (R103). -/
theorem countsAt_hold : CountsAt idleMode ⟨0#1, 1#1⟩ Config.tLong id := by
  intro s rest hc hp hm hr hstim hb
  have pressed : s.drawPins.sample = (1#1, 0#1) := sample_of_stimulus s _ _ hstim hr
  have within : (s.drawPins.bTimer.toNat + 1) % 256 ≤ s.drawPins.cfg.tLong := by
    rw [State.drawPins_bTimer, State.drawPins_cfg]; exact (Nat.mod_le _ _).trans hb
  have hold := tickBranch_idleHold (s.drawPins_mode.trans hm) pressed within
  exact step_sampled hc hp hstim hold

/-- So `j` such ticks within the limit count to `j`. -/
theorem CountsAt.run {m : ModeCode} {p : Pins} {limit : Config → Nat} {latch : Bit → Bit}
    (counts : CountsAt m p limit latch) (j : Nat) {s : State} {rest : List Pins} (hc : s.cfg.wf = true)
    (hp : s.phase = .run) (hm : s.mode = m) (hr : s.rstOe = 0#1) (hstim : s.stimulus = List.replicate j p ++ rest)
    (hlimit : limit s.cfg ≤ 254) (hb : s.bTimer.toNat + j ≤ limit s.cfg) :
    ∃ t, runSteps j s = .next t ∧ t.stimulus = rest ∧ t.bTimer.toNat = s.bTimer.toNat + j ∧
      t.fsm = { s.fsm with ob := latch^[j] s.ob, bTimer := t.bTimer } := by
  induction j generalizing s with
  | zero => exact ⟨s, rfl, hstim, rfl, rfl⟩
  | succ j ih =>
    obtain ⟨a, ha, astim, afsm⟩ := counts s _ hc hp hm hr hstim (by omega)
    have acfg : a.cfg = s.cfg := congrArg Fsm.cfg afsm
    have aob : a.ob = latch s.ob := congrArg Fsm.ob afsm
    have atimer : a.bTimer = s.bTimer + 1#8 := congrArg Fsm.bTimer afsm
    have acount : a.bTimer.toNat = s.bTimer.toNat + 1 := by
      rw [atimer, bTimer_succ_toNat, Nat.mod_eq_of_lt (by omega)]
    obtain ⟨t, ht, tstim, tcount, tfsm⟩ := ih (acfg ▸ hc) ((congrArg Fsm.phase afsm).trans hp)
      ((congrArg Fsm.mode afsm).trans hm) ((congrArg Fsm.rstOe afsm).trans hr) astim (acfg ▸ hlimit)
      (by rw [acount, acfg]; omega)
    exact ⟨t, by rw [runSteps_succ _ _ _ ha, ht], tstim, by omega, by rw [tfsm, aob, afsm]; rfl⟩

/-- On the way through `n + 1` samples of the kind, the `n` first within the limit: where each tick starts. -/
theorem CountsAt.run_upTo {m : ModeCode} {p : Pins} {limit : Config → Nat} {latch : Bit → Bit}
    (counts : CountsAt m p limit latch) {n : Nat} {s : State} {rest : List Pins} (hc : s.cfg.wf = true)
    (hp : s.phase = .run) (hm : s.mode = m) (hr : s.rstOe = 0#1)
    (hstim : s.stimulus = List.replicate (n + 1) p ++ rest) (hlimit : limit s.cfg ≤ 254)
    (hb : s.bTimer.toNat + n ≤ limit s.cfg) (j : Nat) (hj : j ≤ n) :
    ∃ t, runSteps j s = .next t ∧ t.stimulus = List.replicate (n - j) p ++ p :: rest ∧
      t.bTimer.toNat = s.bTimer.toNat + j ∧ t.fsm = { s.fsm with ob := latch^[j] s.ob, bTimer := t.bTimer } := by
  refine counts.run j hc hp hm hr ?_ hlimit (by omega)
  rw [hstim, List.replicate_succ', List.append_assoc, List.singleton_append, ← List.append_assoc,
    List.replicate_append_replicate, Nat.add_sub_cancel' hj]

/-- A released tick of Select past the quiet time commits, armed or not (R111, R113). -/
theorem step_commit {s : State} {rest : List Pins} (hc : s.cfg.wf = true) (hp : s.phase = .run)
    (hm : s.mode = selectMode) (hr : s.rstOe = 0#1) (hstim : s.stimulus = ⟨1#1, 1#1⟩ :: rest)
    (hb : s.cfg.tCommit < (s.bTimer.toNat + 1) % 256) : ∃ t, step s = .next t ∧ t.mode = idleMode := by
  have released : s.drawPins.sample = (0#1, 0#1) := sample_of_stimulus s _ _ hstim hr
  have past : s.drawPins.cfg.tCommit < (s.drawPins.bTimer.toNat + 1) % 256 := by
    rw [State.drawPins_bTimer, State.drawPins_cfg]; exact hb
  rcases bit_cases s.ob with ho | ho
  · have commit := tickBranch_selArmCommit (s.drawPins_mode.trans hm) (s.drawPins_ob.trans ho) released past
    obtain ⟨t, ht, -, effect⟩ := step_sampled hc hp hstim commit
    exact ⟨t, ht, congrArg Fsm.mode effect⟩
  · have commit := tickBranch_selCommit (s.drawPins_mode.trans hm) (s.drawPins_ob.trans ho) released past
    obtain ⟨t, ht, -, effect⟩ := step_sampled hc hp hstim commit
    exact ⟨t, ht, congrArg Fsm.mode effect⟩

/-- A released tick of Idle clears the timer (R102). -/
theorem step_rest {s : State} {rest : List Pins} (hc : s.cfg.wf = true) (hp : s.phase = .run)
    (hm : s.mode = idleMode) (hr : s.rstOe = 0#1) (hstim : s.stimulus = ⟨1#1, 1#1⟩ :: rest) :
    ∃ t, step s = .next t ∧ t.fsm = { s.fsm with bTimer := 0#8 } := by
  have released : s.drawPins.sample = (0#1, 0#1) := sample_of_stimulus s _ _ hstim hr
  have rests := tickBranch_idleRest (s.drawPins_mode.trans hm) released
  obtain ⟨t, ht, -, effect⟩ := step_sampled hc hp hstim rests
  exact ⟨t, ht, effect⟩

/-- A pressed tick of Idle past the long-press threshold enters Select with the pulse not suppressed (R104). -/
theorem step_longpress {s : State} {rest : List Pins} (hc : s.cfg.wf = true) (hp : s.phase = .run)
    (hm : s.mode = idleMode) (hr : s.rstOe = 0#1) (hstim : s.stimulus = ⟨0#1, 1#1⟩ :: rest)
    (hb : s.cfg.tLong < (s.bTimer.toNat + 1) % 256) : ∃ t, step s = .next t ∧ t.fsm = s.fsm.enterSelect 0#1 := by
  have pressed : s.drawPins.sample = (1#1, 0#1) := sample_of_stimulus s _ _ hstim hr
  have past : s.drawPins.cfg.tLong < (s.drawPins.bTimer.toNat + 1) % 256 := by
    rw [State.drawPins_bTimer, State.drawPins_cfg]; exact hb
  have enters := tickBranch_idleLongpress (s.drawPins_mode.trans hm) pressed past
  obtain ⟨t, ht, -, effect⟩ := step_sampled hc hp hstim enters
  exact ⟨t, ht, effect⟩

/-- A run and one step more. -/
theorem runSteps_append_step {k : Nat} {s t u : State} (h : runSteps k s = .next t) (hstep : step t = .next u) :
    runSteps (k + 1) s = .next u := by
  rw [runSteps_add k 1 s t h, runSteps_one, hstep]

/-- Settles O43: the pressed ticks by induction on the samples; the released ones counted up to `T_COMMIT`, and one
more, which passes it. -/
theorem commitComesAfterExactlyTheQuietTime : Obligations.CommitComesAfterExactlyTheQuietTime := by
  refine ⟨fun s pins rest hc hp hm hstim hlow => ?_, fun s n rest hc hp hm hr hstart hn hstim => ?_⟩
  · obtain ⟨t, ht, tfsm⟩ := runSteps_pressed pins hc hp hm hstim hlow
    refine ⟨t, ht, (congrArg Fsm.mode tfsm).trans hm, congrArg Fsm.pulses tfsm, congrArg Fsm.writes tfsm,
      fun hne => ⟨(congrArg Fsm.ob tfsm).trans (if_neg hne), (congrArg Fsm.bTimer tfsm).trans (if_neg hne)⟩⟩
  · obtain ⟨-, hcommit, -⟩ := configWf s.cfg hc
    have hle : s.bTimer.toNat ≤ s.cfg.tCommit := by
      rcases hstart with ⟨-, hle⟩ | ⟨-, hzero⟩
      · exact hle
      · simp [hzero]
    obtain ⟨m, rfl⟩ : ∃ m, n = m + 1 := ⟨s.cfg.tCommit - s.bTimer.toNat, by omega⟩
    have quiet := countsAt_quiet.run_upTo hc hp hm hr hstim hcommit (by omega)
    refine ⟨fun j hj => ?_, ?_⟩
    · obtain ⟨u, hu, -, -, ufsm⟩ := quiet j (Nat.lt_succ_iff.1 hj)
      exact ⟨u, hu, (congrArg Fsm.mode ufsm).trans hm⟩
    · obtain ⟨u, hu, ustim, ucount, ufsm⟩ := quiet m le_rfl
      rw [Nat.sub_self] at ustim
      have ucfg : u.cfg = s.cfg := congrArg Fsm.cfg ufsm
      obtain ⟨t, ht, hidle⟩ := step_commit (ucfg ▸ hc) ((congrArg Fsm.phase ufsm).trans hp)
        ((congrArg Fsm.mode ufsm).trans hm) ((congrArg Fsm.rstOe ufsm).trans hr) ustim
        (by rw [ucfg, ucount]; omega)
      exact ⟨t, runSteps_append_step hu ht, hidle⟩

/-! ### What a tick may move (R116, R117) -/

/-- Settles O37: by the branch, what W has checked of MODE and what the branch makes of it. -/
theorem modeTransitionsAreTheTable : Obligations.ModeTransitionsAreTheTable := by
  intro s t i hp hstep hi
  have selected := State.selects_of_nextBranch hp hi
  have moved : t.mode = (s.fsm.after i).mode := congrArg Fsm.mode (step_fsm hp hstep hi)
  cases i with
  | idleRest ob => exact ⟨selected, moved.trans selected⟩
  | idleHold ob => exact ⟨selected.1, moved.trans selected.1⟩
  | idleLongpress ob => exact ⟨selected.1, moved⟩
  | idleExtreset ob => exact ⟨selected, moved⟩
  | selArm | selHeld rst | selQuiet | selAdvance rst => exact ⟨selected.1, moved.trans selected.1⟩
  | selCommit | selArmCommit => exact ⟨selected.1, moved⟩
  | tickFault mode0 ob any rst exp => exact ⟨selected, moved⟩
  | bootPlain | bootTheme | waitDone | waitHold | runTick sel => exact selected

/-- Only the advance edge moves the index (R110, R116). -/
theorem Fsm.after_idx (i : Instr) (v : Fsm) : (v.after i).idx = if isAdvance i then v.idx + 1#2 else v.idx := by
  cases i <;> rfl

/-- No tick branch moves the theme (R27). -/
theorem Fsm.after_theme (i : Instr) (v : Fsm) : (v.after i).theme = v.theme := by cases i <;> rfl

/-- Settles O38: the index and the theme by their equations, ButtonTimer by the branch. -/
theorem countersMoveOnlyByTheirArithmetic : Obligations.CountersMoveOnlyByTheirArithmetic := by
  intro s t i hp hstep hi
  have selected := State.selects_of_nextBranch hp hi
  have effect := step_fsm hp hstep hi
  have hidx : t.idx = if isAdvance i then s.idx + 1#2 else s.idx := (congrArg Fsm.idx effect).trans (Fsm.after_idx i _)
  have htimer : t.bTimer = (s.fsm.after i).bTimer := congrArg Fsm.bTimer effect
  refine ⟨by rw [hidx, apply_ite BitVec.toNat, idx_succ_toNat],
    (congrArg Fsm.theme effect).trans (Fsm.after_theme i _), ?_⟩
  cases i with
  | idleHold ob | selArm | selQuiet => exact .inl (by rw [htimer, ← bTimer_succ_toNat]; rfl)
  | idleRest ob | idleLongpress ob | idleExtreset ob | selHeld rst | selAdvance rst | selCommit | selArmCommit =>
    exact .inr (.inl htimer)
  | tickFault mode0 ob any rst exp => exact .inr (.inr ⟨htimer, selected⟩)
  | bootPlain | bootTheme | waitDone | waitHold | runTick sel => exact selected.elim

end Sys2Proof.Machine
end

section
/-! PROOFS of the selection state machine's branches (O13 to O25), spec/41_selection_fsm.md: each branch as an equation of
states, the whole tick around it, and what holds of it in the states reached from power-on. -/

namespace Sys2Proof.Machine

/-! ### The whole tick (R100) -/

/-- The indicator update, by the mode (R100, D16). -/
theorem tickIndicator_eq (s : State) : tickIndicator s =
    if s.mode = 0b00#2 ∨ s.mode = 0b01#2 then
      { s with ledOut := s.indicatorNow, trace := s.trace ++ [.evLed s.indicatorNow] }
    else s := by
  split
  case isTrue valid => exact tickIndicator_valid s valid
  case isFalse invalid => exact tickIndicator_invalid s ((invalidMode_iff _).1 (not_or.1 invalid))

/-- Settles O13: every branch completes, and it keeps the parameter that the base sleep reads. -/
theorem tickIsIndicatorBranchAndBaseSleep : Obligations.TickIsIndicatorBranchAndBaseSleep := by
  intro sel s
  obtain ⟨i, hi⟩ : ∃ i, s.tickBranch = .ok i := ⟨_, s.tickBranch_eq⟩
  obtain ⟨t, ht, hext⟩ := exec_completes i (tickIndicator s)
  have hcfg : t.cfg = s.cfg := hext.cfg.trans (tickIndicator_extends s).cfg
  refine ⟨i, t, hi, by rw [← tickIndicator_eq, ht], ?_⟩
  rw [execRunTick_eq sel s i hi, ht, ← hcfg]
  rfl

/-- A whole tick in a valid mode, from its branch. -/
theorem exec_runTick_of_branch {s t : State} {i : Instr} (sel : Bit) (hm : s.mode = idleMode ∨ s.mode = selectMode)
    (hi : s.tickBranch = .ok i)
    (ht : exec i { s with ledOut := s.indicatorNow, trace := s.trace ++ [.evLed s.indicatorNow] } = .next t) :
    exec (.runTick sel) s = .next (tickClose t) := by
  rw [execRunTick_eq sel s i hi, tickIndicator_valid s hm, ht]
  rfl

/-- A whole tick in an invalid mode, from its branch: no indicator update (D16). -/
theorem exec_runTick_of_invalid {s t : State} {i : Instr} (sel : Bit) (hm : s.mode = 0b10#2 ∨ s.mode = 0b11#2)
    (hi : s.tickBranch = .ok i) (ht : exec i s = .next t) : exec (.runTick sel) s = .next (tickClose t) := by
  rw [execRunTick_eq sel s i hi, tickIndicator_invalid s hm, ht]
  rfl

/-! ### The branches as equations of states -/

theorem exec_idleRest (ob : Bit) (s : State) : exec (.idleRest ob) s = .next { s with bTimer := 0#8 } := rfl

theorem exec_idleHold (ob : Bit) (s : State) : exec (.idleHold ob) s = .next { s with bTimer := s.bTimer + 1#8 } := rfl

/-- A Select entry overwrites the increment that led to it (R104). -/
theorem exec_idleLongpress (ob : Bit) {s : State} (hc : s.cfg.wf = true) : exec (.idleLongpress ob) s =
    .next { s with
      mode := selectMode, bTimer := 0#8, ob := 0#1, ign := 0#1,
      trace := s.trace ++ feedbackEvents s.cfg s.ledOut } := by
  obtain ⟨-, -, heven, -⟩ := configWf s.cfg hc
  exact congrArg Host.Outcome.next (enterSelect_eq 0#1 { s with bTimer := s.bTimer + 1#8 } heven)

theorem exec_idleExtreset (ob : Bit) {s : State} (hc : s.cfg.wf = true) : exec (.idleExtreset ob) s =
    .next { s with
      mode := selectMode, bTimer := 0#8, ob := 0#1, ign := 1#1,
      trace := s.trace ++ feedbackEvents s.cfg s.ledOut } := by
  obtain ⟨-, -, heven, -⟩ := configWf s.cfg hc
  exact congrArg Host.Outcome.next (enterSelect_eq 1#1 s heven)

theorem exec_selArm (s : State) : exec .selArm s = .next { s with ob := 1#1, bTimer := s.bTimer + 1#8 } := rfl

theorem exec_selHeld (rst : Bit) (s : State) : exec (.selHeld rst) s = .next { s with bTimer := 0#8 } := rfl

theorem exec_selQuiet (s : State) : exec .selQuiet s = .next { s with bTimer := s.bTimer + 1#8 } := rfl

theorem exec_selAdvance (rst : Bit) (s : State) : exec (.selAdvance rst) s =
    .next { s with
      ob := 0#1, ign := 0#1, idx := s.idx + 1#2, addrOut := s.idx + 1#2, bTimer := 0#8,
      trace := s.trace ++ [.evAddr (s.idx + 1#2), .evSleep s.cfg.tSettleMs] } := by
  show Host.Outcome.next _ = _
  rw [setIndex_eq]

/-- The store after a commit, as the statements have it (R112, R131). -/
def State.committedStore (s : State) : List Host.Cell :=
  if s.idx = s.lastSaved then s.store else Memory.write s.store s.cfg.slotIdx (zext8 s.idx)

/-- A commit with the latch at `o`, after the increment that it overwrites (R111, R113). -/
theorem commit_counted (s : State) (o : Bit) : commit { s with ob := o, bTimer := s.bTimer + 1#8 } =
    { s with
      ob := o, mode := idleMode, bTimer := 0#8, rstOe := if s.ign = 0#1 then 0#1 else s.rstOe,
      store := s.committedStore, lastSaved := s.idx, trace := s.trace ++ commitEvents s } := by
  simp only [commit_eq, ne_eq, ite_not]
  rfl

theorem exec_selCommit (s : State) : exec .selCommit s = .next { s with
    mode := idleMode, bTimer := 0#8, rstOe := if s.ign = 0#1 then 0#1 else s.rstOe,
    store := s.committedStore, lastSaved := s.idx, trace := s.trace ++ commitEvents s } :=
  congrArg Host.Outcome.next (commit_counted s s.ob)

theorem exec_selArmCommit (s : State) : exec .selArmCommit s = .next { s with
    ob := 1#1, mode := idleMode, bTimer := 0#8, rstOe := if s.ign = 0#1 then 0#1 else s.rstOe,
    store := s.committedStore, lastSaved := s.idx, trace := s.trace ++ commitEvents s } :=
  congrArg Host.Outcome.next (commit_counted s 1#1)

theorem exec_tickFault (m o a r x : Bit) (s : State) : exec (.tickFault m o a r x) s = .next { s with
    ledOut := ~~~s.ledOut, addrOut := s.cfg.faultAddr, faultLog := s.faultLog ++ [.faultMode s.mode],
    trace := s.trace ++ [.evLed (~~~s.ledOut), .evAddr s.cfg.faultAddr] } := by
  simp [exec, execTickFault, State.raiseFaultMode, State.toggleLed, State.driveLed, State.driveAddr, State.emit]

/-! ### Idle -/

/-- Settles O14: the branch, the tick around it, and a press counted up to `T_LONG` whose release clears the timer. -/
theorem idleRestClearsTheTimer : Obligations.IdleRestClearsTheTimer := by
  refine ⟨fun s => tickBranch_idleRest, exec_idleRest, fun sel s hm hs => ?_,
    fun s n rest hc hp hm hb hr hn hstim => ?_⟩
  · rw [exec_runTick_of_branch sel (.inl hm) (tickBranch_idleRest hm hs) (exec_idleRest _ _)]
    simp [tickClose_eq]
  · obtain ⟨hlong, -⟩ := configWf s.cfg hc
    obtain ⟨u, hu, ustim, -, ufsm⟩ := countsAt_hold.run n hc hp hm hr hstim hlong (by simp [hb, hn])
    have ucfg : u.cfg = s.cfg := congrArg Fsm.cfg ufsm
    have umode : u.mode = idleMode := (congrArg Fsm.mode ufsm).trans hm
    obtain ⟨t, ht, tfsm⟩ := step_rest (ucfg ▸ hc) ((congrArg Fsm.phase ufsm).trans hp) umode
      ((congrArg Fsm.rstOe ufsm).trans hr) ustim
    exact ⟨t, runSteps_append_step hu ht, (congrArg Fsm.mode tfsm).trans umode, congrArg Fsm.bTimer tfsm⟩

/-- Both thresholds are at most 254, so ButtonTimer never stands where its increment would wrap (R6, R39). -/
theorem RunInv.bTimer_ne_255 {s : State} (h : RunInv s) : s.bTimer ≠ 255#8 := by
  obtain ⟨hlong, hcommit, -⟩ := configWf s.cfg h.settled.configLegal
  obtain ⟨valid, unarmedZero, armedBound, idleBound⟩ := h.timer
  have bound : s.bTimer.toNat ≤ 254 := by
    rcases valid with hm | hm
    · exact (idleBound hm).trans hlong
    · rcases bit_cases s.ob with ho | ho
      · simp [unarmedZero hm ho]
      · exact (armedBound hm ho).trans hcommit
  intro wraps
  simp [wraps] at bound

/-- Settles O15: the branch, the tick around it, and the bound of the reachable timers. -/
theorem idleHoldCountsThePress : Obligations.IdleHoldCountsThePress := by
  refine ⟨fun s => tickBranch_idleHold, fun ob s => by rw [exec_idleHold, bTimer_succ_eq], fun sel s hm hs hb => ?_,
    fun s hreach hp _ => (hreach.inv.runInv hp).bTimer_ne_255⟩
  rw [exec_runTick_of_branch sel (.inl hm) (tickBranch_idleHold hm hs hb) (exec_idleHold _ _)]
  simp [tickClose_eq]

/-- A branch that is none of the boot's is a branch of RUN. -/
theorem phase_of_nextBranch {s : State} {i : Instr} (h : s.nextBranch = .ok i)
    (hi : i ≠ .bootPlain ∧ i ≠ .bootTheme ∧ i ≠ .waitDone ∧ i ≠ .waitHold) : s.phase = .run := by
  by_contra hp
  rw [State.nextBranch_boot s hp, State.phaseBranch_eq, State.drawPins_phase] at h
  injection h with h
  subst h
  cases hphase : s.phase with
  | run => exact hp hphase
  | powerOn | waitRelease => rw [hphase] at hi; dsimp only at hi; split at hi <;> simp at hi

/-- Settles O16: the branch, the tick around it, a press counted up to `T_LONG` and one tick more, and R39 (d). -/
theorem longPressEntersSelect : Obligations.LongPressEntersSelect := by
  refine ⟨fun s => tickBranch_idleLongpress, fun ob s => exec_idleLongpress ob, fun sel s hc hm hs hb => ?_,
    fun s rest hc hp hm hb hr hstim => ?_, fun s ob hreach hi => ?_⟩
  · rw [exec_runTick_of_branch sel (.inl hm) (tickBranch_idleLongpress hm hs hb) (exec_idleLongpress _ hc)]
    simp [tickClose_eq]
  · obtain ⟨hlong, -⟩ := configWf s.cfg hc
    have held := countsAt_hold.run_upTo hc hp hm hr hstim hlong (by simp [hb])
    have rest_zero : s.bTimer.toNat = 0 := by rw [hb]; rfl
    refine ⟨fun j hj => ?_, ?_⟩
    · obtain ⟨u, hu, -, ucount, ufsm⟩ := held j hj
      exact ⟨u, hu, (congrArg Fsm.mode ufsm).trans hm, by omega⟩
    · obtain ⟨u, hu, ustim, ucount, ufsm⟩ := held _ le_rfl
      rw [Nat.sub_self] at ustim
      have ucfg : u.cfg = s.cfg := congrArg Fsm.cfg ufsm
      obtain ⟨t, ht, tfsm⟩ := step_longpress (ucfg ▸ hc) ((congrArg Fsm.phase ufsm).trans hp)
        ((congrArg Fsm.mode ufsm).trans hm) ((congrArg Fsm.rstOe ufsm).trans hr) ustim (by rw [ucfg, ucount]; omega)
      exact ⟨t, runSteps_append_step hu ht, congrArg Fsm.mode tfsm, congrArg Fsm.bTimer tfsm, congrArg Fsm.ob tfsm,
        congrArg Fsm.ign tfsm, (congrArg Fsm.idx tfsm).trans (congrArg Fsm.idx ufsm)⟩
  · have hp := phase_of_nextBranch hi (by simp)
    obtain ⟨hm, past⟩ := State.selects_of_nextBranch hp hi
    have within := (hreach.inv.runInv hp).timer.idleBound hm
    exact within.antisymm (Nat.lt_succ_iff.1 (past.trans_le (Nat.mod_le _ _)))

/-- Settles O17: the branch and the tick around it. -/
theorem resetLineEntersSelect : Obligations.ResetLineEntersSelect := by
  refine ⟨fun s => tickBranch_idleExtreset, fun ob s => exec_idleExtreset ob, fun sel s hc hm hs => ?_⟩
  rw [exec_runTick_of_branch sel (.inl hm) (tickBranch_idleExtreset hm hs) (exec_idleExtreset _ hc)]
  simp [tickClose_eq]

/-! ### Select -/

/-- Settles O18: the branch, the tick around it, and R39 (b). -/
theorem selArmLatchesAndCounts : Obligations.SelArmLatchesAndCounts := by
  refine ⟨fun s => tickBranch_selArm, fun s => by rw [exec_selArm, bTimer_succ_eq], fun sel s hm ho hs hb => ?_,
    fun s hreach hi => ?_⟩
  · rw [exec_runTick_of_branch sel (.inr hm) (tickBranch_selArm hm ho hs hb) (exec_selArm _)]
    simp [tickClose_eq]
  · have hp := phase_of_nextBranch hi (by simp)
    obtain ⟨hm, unarmed, -⟩ := State.selects_of_nextBranch hp hi
    exact (hreach.inv.runInv hp).timer.unarmedZero hm unarmed

/-- Settles O19: the branch and the tick around it. -/
theorem selHeldClearsTheTimer : Obligations.SelHeldClearsTheTimer := by
  refine ⟨fun s => tickBranch_selHeld, exec_selHeld, fun sel s hm ho hs => ?_⟩
  rw [exec_runTick_of_branch sel (.inr hm) (tickBranch_selHeld hm ho hs) (exec_selHeld _ _)]
  simp [tickClose_eq]

/-- Settles O20: the branch, the tick around it, and the bound of the reachable timers. -/
theorem selQuietCounts : Obligations.SelQuietCounts := by
  refine ⟨fun s => tickBranch_selQuiet, fun s => by rw [exec_selQuiet, bTimer_succ_eq], fun sel s hm ho hs hb => ?_,
    fun s hreach hp _ => (hreach.inv.runInv hp).bTimer_ne_255⟩
  rw [exec_runTick_of_branch sel (.inr hm) (tickBranch_selQuiet hm ho hs hb) (exec_selQuiet _)]
  simp [tickClose_eq]

/-- Settles O21: the branch, the tick around it, and that the next pressed tick finds the latch unarmed. -/
theorem selAdvanceStepsTheBank : Obligations.SelAdvanceStepsTheBank := by
  refine ⟨fun s => tickBranch_selAdvance, fun rst s => by rw [exec_selAdvance, idx_succ_eq],
    fun sel s hm ho hs => ?_, fun rst s t ht hm hpressed => ?_⟩
  · rw [exec_runTick_of_branch sel (.inr hm) (tickBranch_selAdvance hm ho hs) (exec_selAdvance _ _)]
    simp [tickClose_eq]
  · rw [exec_selAdvance] at ht
    injection ht with ht
    have tmode : t.mode = selectMode := by rw [← ht]; exact hm
    have unarmed : t.ob = 0#1 := by rw [← ht]
    exact tickBranch_selHeld (t.drawPins_mode.trans tmode) (t.drawPins_ob.trans unarmed) hpressed

/-- The bytes of the store after a commit: only the index slot can change, and then it reads the index (R112, R131). -/
theorem committedStore_reads {s t : State} (hcfg : t.cfg = s.cfg) (hstore : t.store = s.committedStore) :
    (∀ a, a ≠ s.cfg.slotIdx → Memory.read t.store a = Memory.read s.store a) ∧
    (s.idx = s.lastSaved → t.store = s.store) ∧
    (s.idx ≠ s.lastSaved → Memory.wf s.store → (t.memRead .idx).toNat = s.idx.toNat) := by
  by_cases saved : s.idx = s.lastSaved
  · have kept : t.store = s.store := hstore.trans (if_pos saved)
    exact ⟨fun a _ => by rw [kept], fun _ => kept, fun unsaved => absurd saved unsaved⟩
  · have written : t.store = Memory.write s.store s.cfg.slotIdx (zext8 s.idx) := hstore.trans (if_neg saved)
    refine ⟨fun a ha => by rw [written, Memory.read_write_of_ne _ _ _ _ ha], fun h => absurd h saved, fun _ hwf => ?_⟩
    have reads : t.memRead .idx = zext8 s.idx := by
      rw [State.memRead, written, hcfg]; exact Memory.read_write_same _ _ _ hwf
    rw [reads, zext8_toNat (by decide)]

/-- Settles O22: the branch, the tick around it, the store's bytes, and `T_COMMIT` released ticks before it. -/
theorem selCommitPulsesPersistsAndRests : Obligations.SelCommitPulsesPersistsAndRests := by
  refine ⟨fun s => tickBranch_selCommit, exec_selCommit, fun sel s hm ho hs hb => ?_, fun s t ht => ?_,
    fun s rest hc hp hm ho hb hr hpos hstim => ?_⟩
  · rw [exec_runTick_of_branch sel (.inr hm) (tickBranch_selCommit hm ho hs hb) (exec_selCommit _)]
    simp [tickClose_eq, State.committedStore, commitEvents]
  · rw [exec_selCommit] at ht
    injection ht with ht
    exact committedStore_reads (by rw [← ht]) (by rw [← ht])
  · obtain ⟨-, hcommit, -⟩ := configWf s.cfg hc
    have start_zero : s.bTimer.toNat = 0 := by rw [hb]; rfl
    obtain ⟨u, hu, ustim, ucount, ufsm⟩ :=
      countsAt_quiet.run_upTo hc hp hm hr hstim hcommit (by omega) s.cfg.tCommit le_rfl
    rw [Nat.sub_self] at ustim
    have armed : u.ob = 1#1 := by
      rw [show u.ob = _ from congrArg Fsm.ob ufsm]
      obtain ⟨k, hk⟩ := Nat.exists_eq_succ_of_ne_zero hpos.ne'
      rw [hk, Function.iterate_succ_apply']
    have released : u.drawPins.sample = (0#1, 0#1) :=
      sample_of_stimulus u _ _ ustim ((congrArg Fsm.rstOe ufsm).trans hr)
    have past : u.drawPins.cfg.tCommit < (u.drawPins.bTimer.toNat + 1) % 256 := by
      rw [State.drawPins_bTimer, State.drawPins_cfg, ucount, show u.cfg = s.cfg from congrArg Fsm.cfg ufsm]; omega
    have commits := tickBranch_selCommit (u.drawPins_mode.trans ((congrArg Fsm.mode ufsm).trans hm))
      (u.drawPins_ob.trans armed) released past
    exact ⟨u, hu, (u.nextBranch_run ((congrArg Fsm.phase ufsm).trans hp)).trans commits⟩

/-- Settles O23: the branch, the tick around it, the store's bytes, and R39 (b): the increment that passes the
threshold is the first. -/
theorem selArmCommitArmsAndCommits : Obligations.SelArmCommitArmsAndCommits := by
  refine ⟨fun s => tickBranch_selArmCommit, exec_selArmCommit, fun sel s hm ho hs hb => ?_, fun s t ht => ?_,
    fun s hreach hi => ?_⟩
  · rw [exec_runTick_of_branch sel (.inr hm) (tickBranch_selArmCommit hm ho hs hb) (exec_selArmCommit _)]
    simp [tickClose_eq, State.committedStore, commitEvents]
  · rw [exec_selArmCommit] at ht
    injection ht with ht
    exact committedStore_reads (by rw [← ht]) (by rw [← ht])
  · have hp := phase_of_nextBranch hi (by simp)
    obtain ⟨hm, unarmed, past⟩ := State.selects_of_nextBranch hp hi
    rw [(hreach.inv.runInv hp).timer.unarmedZero hm unarmed] at past
    exact Nat.lt_one_iff.1 past

/-- R109's algorithm with a line pressed: the advance if armed, then the cleared timer. -/
theorem selectAlgorithm_pressed {sel rst : Bit} (h : sel = 1#1 ∨ rst = 1#1) (s : State) :
    selectAlgorithm sel rst s =
      if s.ob = 1#1 then
        { setIndex (s.idx + 1#2) { s with ob := 0#1, ign := 0#1, idx := s.idx + 1#2 } with bTimer := 0#8 }
      else { s with bTimer := 0#8 } := by
  have any : sel ||| rst = 1#1 := (anyBit_eq_one_iff sel rst).2 h
  by_cases armed : s.ob = 1#1 <;> simp [selectAlgorithm, any, armed]

/-- R109's algorithm with both lines released: the latch armed, the count, and the commit past the quiet time. -/
theorem selectAlgorithm_released {sel rst : Bit} (h : ¬(sel = 1#1 ∨ rst = 1#1)) (s : State) :
    selectAlgorithm sel rst s =
      if s.cfg.tCommit < (s.bTimer.toNat + 1) % 256 then commit { s with ob := 1#1, bTimer := s.bTimer + 1#8 }
      else { s with ob := 1#1, bTimer := s.bTimer + 1#8 } := by
  have any : sel ||| rst = 0#1 := (bit_cases _).resolve_right fun any => h ((anyBit_eq_one_iff sel rst).1 any)
  rw [← bTimer_succ_toNat]
  rcases bit_cases s.ob with ho | ho <;> simp [selectAlgorithm, any, ho]

/-- The Select branch that W selects does what R109's algorithm does: the arm or the advance by OB, then the count and
the commit, or the cleared timer. -/
theorem exec_eq_selectAlgorithm {s : State} {i : Instr} (hm : s.mode = selectMode) (hi : s.tickBranch = .ok i) :
    exec i s = .next (selectAlgorithm s.sample.1 s.sample.2 s) := by
  rw [State.tickBranch_select hm] at hi
  injection hi with hi
  subst hi
  by_cases pressed : s.sample.1 = 1#1 ∨ s.sample.2 = 1#1
  · rw [if_pos pressed, selectAlgorithm_pressed pressed]
    split_ifs <;> rfl
  · rw [if_neg pressed, selectAlgorithm_released pressed]
    split_ifs with past armed armed
    · rw [← armed]; rfl
    · rfl
    · rw [← armed]; rfl
    · rfl

@[simp] theorem tickIndicator_sample (s : State) : (tickIndicator s).sample = s.sample := by
  unfold tickIndicator; split <;> rfl

/-- Settles O24: the branch as the algorithm; the tick around it is every tick's. -/
theorem selectTickIsOneAlgorithm : Obligations.SelectTickIsOneAlgorithm := by
  intro sel s hm
  obtain ⟨i, hi⟩ : ∃ i, s.tickBranch = .ok i := ⟨_, s.tickBranch_eq⟩
  have hbranch := exec_eq_selectAlgorithm ((tickIndicator_mode s).trans hm) ((tickIndicator_tickBranch s).trans hi)
  rw [tickIndicator_sample] at hbranch
  rw [execRunTick_eq sel s i hi, hbranch]
  rfl

/-! ### The fault branch -/

/-- Settles O25: the branch and the tick around it. -/
theorem tickFaultFlashesAndForcesTheAddress : Obligations.TickFaultFlashesAndForcesTheAddress := by
  refine ⟨fun s hm => ⟨_, _, _, State.tickBranch_invalid hm⟩, exec_tickFault, fun sel s hm => ?_⟩
  rw [exec_runTick_of_invalid sel hm (State.tickBranch_invalid hm) (exec_tickFault _ _ _ _ _ _)]
  simp [tickClose_eq]

end Sys2Proof.Machine
end

section
/-! PROOFS of the index and theme store's family (O39, O40), spec/42_index_theme_store.md. The writes of a tick and the
shadow LASTSAVED are read off its branch's equation on the registers (`Fsm.after`). The store's bytes are said by one
equation for every branch (`State.storeAfter`), which each step follows; the reload after power is the invariant's
agreement of registers and store, read by the boot. -/

namespace Sys2Proof.Machine

/-! ### Writes and the shadow (R131, R134) -/

/-- A tick stays in RUN (R117). -/
theorem Fsm.after_phase (i : Instr) (v : Fsm) : (v.after i).phase = v.phase := by cases i <;> rfl

/-- Only a commit moves the shadow, to the index (R131). -/
theorem Fsm.after_lastSaved (i : Instr) (v : Fsm) :
    (v.after i).lastSaved = if isCommit i then v.idx else v.lastSaved := by cases i <;> rfl

/-- Only a commit writes, once, and only an index that differs from the shadow (R131, R134). -/
theorem Fsm.after_writes (i : Instr) (v : Fsm) :
    (v.after i).writes =
      v.writes ++ if isCommit i ∧ v.idx ≠ v.lastSaved then [(v.cfg.slotIdx, zext8 v.idx)] else [] := by
  cases i with
  | selCommit | selArmCommit => simp [Fsm.after, Fsm.commit, isCommit]
  | bootPlain | bootTheme | waitDone | waitHold | runTick sel | idleRest ob | idleHold ob | idleLongpress ob
  | idleExtreset ob | selArm | selHeld rst | selQuiet | selAdvance rst | tickFault mode0 ob any rst exp =>
    exact (List.append_nil _).symm

/-- A commit is no advance edge. -/
theorem isAdvance_of_isCommit {i : Instr} (hi : isCommit i = true) : isAdvance i = false := by
  cases i with
  | selAdvance rst => cases hi
  | bootPlain | bootTheme | waitDone | waitHold | runTick sel | idleRest ob | idleHold ob | idleLongpress ob
  | idleExtreset ob | selArm | selArmCommit | selHeld rst | selQuiet | selCommit
  | tickFault mode0 ob any rst exp => rfl

/-- After a commit the shadow is the index, which the commit leaves (R131). -/
theorem Fsm.after_commit_saved {i : Instr} (hi : isCommit i = true) (v : Fsm) :
    (v.after i).lastSaved = (v.after i).idx := by
  rw [Fsm.after_lastSaved, Fsm.after_idx, if_pos hi, isAdvance_of_isCommit hi]
  rfl

/-- A tick without a commit keeps the shadow and writes nothing. -/
theorem Fsm.after_withoutCommit {i : Instr} (hi : isCommit i = false) (v : Fsm) :
    (v.after i).lastSaved = v.lastSaved ∧ (v.after i).writes = v.writes := by
  simp [Fsm.after_lastSaved, Fsm.after_writes, hi]

/-- Any number of ticks without a commit keep the shadow and write nothing. -/
theorem Path.withoutCommit {a b : State} {mids : List Instr} (h : Path a mids b) (hp : a.phase = .run)
    (hno : ∀ m ∈ mids, isCommit m = false) :
    b.phase = .run ∧ b.lastSaved = a.lastSaved ∧ storeWrites b.trace = storeWrites a.trace := by
  induction h with
  | nil s => exact ⟨hp, rfl, rfl⟩
  | @cons s t u i is hi hstep _ ih =>
    obtain ⟨hfirst, hrest⟩ := List.forall_mem_cons.1 hno
    have effect := step_fsm hp hstep hi
    have tphase : t.phase = .run := (congrArg Fsm.phase effect).trans ((Fsm.after_phase i _).trans hp)
    obtain ⟨tsaved, twrites⟩ := Fsm.after_withoutCommit hfirst s.fsm
    rw [← effect] at tsaved twrites
    obtain ⟨uphase, usaved, uwrites⟩ := ih tphase hrest
    exact ⟨uphase, usaved.trans tsaved, uwrites.trans twrites⟩

/-- Settles O39: the branch's equations; and the first commit leaves the shadow at the index, where the second finds
it. -/
theorem writeOnlyInACommitThatChangesTheIndex : Obligations.WriteOnlyInACommitThatChangesTheIndex := by
  refine ⟨fun s t i hp hstep hi => ?_, fun s a b u first second mids hp hfirst hsecond hno hpa hpb hpu hidx => ?_⟩
  · have effect := step_fsm hp hstep hi
    exact ⟨(congrArg Fsm.writes effect).trans (Fsm.after_writes i _),
      (congrArg Fsm.lastSaved effect).trans (Fsm.after_lastSaved i _)⟩
  · cases hpa with
    | cons hi hstep hnil =>
    cases hnil
    cases hpu with
    | cons hi' hstep' hnil =>
    cases hnil
    have committed := step_fsm hp hstep hi
    have aphase : a.phase = .run := (congrArg Fsm.phase committed).trans ((Fsm.after_phase first _).trans hp)
    have asaved : a.fsm.lastSaved = a.fsm.idx := by rw [committed]; exact Fsm.after_commit_saved hfirst _
    obtain ⟨bphase, bsaved, bwrites⟩ := hpb.withoutCommit aphase hno
    have unchanged : b.idx = b.lastSaved := hidx.trans (asaved.symm.trans bsaved.symm)
    have uwrites : storeWrites u.trace = storeWrites b.trace ++ _ :=
      (congrArg Fsm.writes (step_fsm bphase hstep' hi')).trans (Fsm.after_writes second _)
    rw [uwrites, if_neg fun h => h.2 unchanged, List.append_nil, bwrites]

/-! ### The store's bytes (R131, R133, R135) -/

/-- The store after a branch: BOOT_THEME writes the inverted theme, a commit the index if it changed, and nothing else
writes (R131, R133). RUN_TICK stands for the branch within it and adds nothing itself. -/
def State.storeAfter (i : Instr) (s : State) : List Host.Cell :=
  match i with
  | .bootTheme => Memory.write s.store s.cfg.slotTheme (zext8 (~~~s.bootTheme))
  | .selCommit | .selArmCommit => s.committedStore
  | .bootPlain | .waitDone | .waitHold | .runTick _ | .idleRest _ | .idleHold _ | .idleLongpress _ | .idleExtreset _
  | .selArm | .selHeld _ | .selQuiet | .selAdvance _ | .tickFault _ _ _ _ _ => s.store

@[simp] theorem State.storeAfter_drawPins (i : Instr) (s : State) : s.drawPins.storeAfter i = s.storeAfter i := by
  unfold State.drawPins; split <;> rfl

@[simp] theorem State.storeAfter_tickIndicator (i : Instr) (s : State) :
    (tickIndicator s).storeAfter i = s.storeAfter i := by
  unfold tickIndicator; split <;> rfl

theorem enterSelect_store (ign : Bit) (s : State) : (enterSelect ign s).store = s.store := by
  rw [enterSelect, feedbackBlink, blink_eq]

/-- BOOT_PLAIN, all it leaves (R165 with R163 and R164). -/
theorem exec_bootPlain (s : State) : exec .bootPlain s = .next { s with
    phase := .run, mode := idleMode, bTimer := 0#8, ob := 0#1, ign := 0#1, idx := s.bootIndex,
    lastSaved := s.bootIndex, theme := s.bootTheme, addrOut := s.bootIndex, ledOut := 0#1, rstOe := 0#1,
    trace := s.trace ++ (prefixEvents s.cfg s.bootIndex ++ suffixEvents s.cfg 0#1) } := by
  show Host.Outcome.next _ = _
  rw [bootSuffix_eq, bootPrefix_eq, List.append_assoc]
  rfl

/-- BOOT_THEME, all it leaves (R166 with R163 and R133). -/
theorem exec_bootTheme (s : State) : exec .bootTheme s = .next { s with
    phase := .waitRelease, idx := s.bootIndex, lastSaved := s.bootIndex, theme := ~~~s.bootTheme,
    addrOut := s.bootIndex, ledOut := 0#1, rstOe := 0#1,
    store := Memory.write s.store s.cfg.slotTheme (zext8 (~~~s.bootTheme)),
    trace := s.trace ++ (prefixEvents s.cfg s.bootIndex
      ++ [.evStoreWrite s.cfg.slotTheme (zext8 (~~~s.bootTheme)), .evSleep s.cfg.tPollMs]) } := by
  show Host.Outcome.next { (themeToggle (bootPrefix s)).sleep _ with phase := .waitRelease } = _
  rw [themeToggle_eq, bootPrefix_eq]
  simp [State.sleep, State.emit, State.bootIndex, State.bootTheme]

/-- WAIT_DONE, all it leaves (R168 with R164). -/
theorem exec_waitDone (s : State) : exec .waitDone s = .next { s with
    phase := .run, mode := idleMode, bTimer := 0#8, ob := 0#1, ign := 0#1, rstOe := 0#1,
    trace := s.trace ++ suffixEvents s.cfg s.ledOut } :=
  congrArg Host.Outcome.next (bootSuffix_eq s)

/-- Each branch leaves the store that `State.storeAfter` says. -/
theorem exec_store {s t : State} {i : Instr} (hi : ∀ b, i ≠ .runTick b) (h : exec i s = .next t) :
    t.store = s.storeAfter i := by
  cases i with
  | runTick sel => exact absurd rfl (hi sel)
  | bootPlain => rw [exec_bootPlain] at h; cases h; rfl
  | bootTheme => rw [exec_bootTheme] at h; cases h; rfl
  | waitDone => rw [exec_waitDone] at h; cases h; rfl
  | idleLongpress ob => cases h; exact enterSelect_store 0#1 _
  | idleExtreset ob => cases h; exact enterSelect_store 1#1 s
  | selCommit => rw [exec_selCommit] at h; cases h; rfl
  | selArmCommit => rw [exec_selArmCommit] at h; cases h; rfl
  | waitHold | idleRest ob | idleHold ob | selArm | selHeld rst | selQuiet | selAdvance rst
  | tickFault mode0 ob any rst exp => cases h; rfl

/-- A boot step that answers is the next branch, from the drawn levels. -/
theorem step_boot_next {s t : State} {i : Instr} (hp : s.phase ≠ .run) (hstep : step s = .next t)
    (hi : s.nextBranch = .ok i) : exec i s.drawPins = .next t := by
  obtain ⟨-, j, hj, hexec⟩ := step_next s t hstep
  rw [State.nextBranch_boot s hp, hj] at hi
  exact Except.ok.inj hi ▸ hexec

/-- A step leaves the store that its branch does, in the boot and in RUN. -/
theorem step_store {s t : State} {i : Instr} (hstep : step s = .next t) (hi : s.nextBranch = .ok i) :
    t.store = s.storeAfter i := by
  obtain ⟨-, notTick⟩ := nextBranch_wellFormed hi
  by_cases hp : s.phase = .run
  · obtain ⟨u, hu, rfl⟩ := step_run_next hp hstep hi
    have branch := exec_store notTick hu
    rwa [State.storeAfter_tickIndicator, State.storeAfter_drawPins] at branch
  · rw [exec_store notTick (step_boot_next hp hstep hi), State.storeAfter_drawPins]

/-- Only a commit writes the index slot: BOOT_THEME's slot is another (R135). -/
theorem State.storeAfter_slotIdx {s : State} {i : Instr} (hslots : s.cfg.slotIdx ≠ s.cfg.slotTheme)
    (hi : isCommit i = false) :
    Memory.read (s.storeAfter i) s.cfg.slotIdx = Memory.read s.store s.cfg.slotIdx := by
  cases i with
  | bootTheme => exact Memory.read_write_of_ne _ _ _ _ hslots
  | selCommit | selArmCommit => cases hi
  | bootPlain | waitDone | waitHold | runTick sel | idleRest ob | idleHold ob | idleLongpress ob | idleExtreset ob
  | selArm | selHeld rst | selQuiet | selAdvance rst | tickFault mode0 ob any rst exp => rfl

/-- A commit leaves the theme slot: the index's slot is another (R135). -/
theorem State.committedStore_slotTheme {s : State} (hslots : s.cfg.slotIdx ≠ s.cfg.slotTheme) :
    Memory.read s.committedStore s.cfg.slotTheme = Memory.read s.store s.cfg.slotTheme := by
  unfold State.committedStore
  split
  · rfl
  · exact Memory.read_write_of_ne _ _ _ _ hslots.symm

/-- Only BOOT_THEME writes the theme slot (R133, R135). -/
theorem State.storeAfter_slotTheme {s : State} {i : Instr} (hslots : s.cfg.slotIdx ≠ s.cfg.slotTheme)
    (hi : i ≠ .bootTheme) :
    Memory.read (s.storeAfter i) s.cfg.slotTheme = Memory.read s.store s.cfg.slotTheme := by
  cases i with
  | bootTheme => exact absurd rfl hi
  | selCommit | selArmCommit => exact State.committedStore_slotTheme hslots
  | bootPlain | waitDone | waitHold | runTick sel | idleRest ob | idleHold ob | idleLongpress ob | idleExtreset ob
  | selArm | selHeld rst | selQuiet | selAdvance rst | tickFault mode0 ob any rst exp => rfl

/-! ### The next boot (R135) -/

/-- Past the boot's first step the registers and the store agree. -/
theorem Inv.storeInv {s : State} (h : Inv s) (hp : s.phase ≠ .powerOn) : StoreInv s := by
  cases hphase : s.phase with
  | powerOn => exact absurd hphase hp
  | waitRelease => exact (h.waiting hphase).2
  | run => exact (h.ticking hphase).2

@[simp] theorem State.drawPins_memRead (k : Slot) (s : State) : s.drawPins.memRead k = s.memRead k := by
  simp [State.memRead]

/-- A power cycle keeps both slots' bytes (R184). -/
@[simp] theorem State.powerCycle_memRead (k : Slot) (s : State) : s.powerCycle.memRead k = s.memRead k := rfl

/-- A boot with select released writes nothing (R163, R164). -/
theorem bootPlain_storeWrites (c : Config) (i : Bank) (l : Bit) :
    storeWrites (prefixEvents c i ++ suffixEvents c l) = [] := by
  simp [prefixEvents, suffixEvents, pulseEvents, selfTestEvents, storeWrites, storeWrites_append,
    blinkEvents_storeWrites]

/-- Settles O40: the store's equation slot by slot; and the boot loads what the invariant says the slots hold. -/
theorem slotsAreIndependentAndSurvivePower : Obligations.SlotsAreIndependentAndSurvivePower := by
  refine ⟨fun s t i hstep hi => ?_, fun s u hreach hp hi hstep => ?_⟩
  · obtain ⟨hc, -⟩ := step_next s t hstep
    obtain ⟨-, -, -, -, -, hslots⟩ := configWf s.cfg hc
    rw [step_store hstep hi]
    exact ⟨State.storeAfter_slotIdx hslots, State.storeAfter_slotTheme hslots⟩
  · obtain ⟨confirmed, persisted⟩ := hreach.inv.storeInv hp
    have boot := step_boot_next (s := s.powerCycle) (by simp [State.powerCycle, State.powerOn]) hstep hi
    rw [exec_bootPlain] at boot
    injection boot with boot
    subst boot
    refine ⟨?_, ?_, ?_⟩
    · simpa [State.bootTheme] using persisted
    · simpa [State.bootIndex] using confirmed
    · rw [State.drawPins_trace]
      exact bootPlain_storeWrites _ _ _

end Sys2Proof.Machine
end

section
/-! PROOFS of the reset pulse's family (O41), spec/43_reset_pulse.md. Every branch adds to the reset line's drives the
boot's release, if it starts the boot, and then the pairs of its pulses (`exec_rstDrives`); so each step does, and its
count of pulses is read off that. A boot's first step brings the release, and no later step brings another. -/

namespace Sys2Proof.Machine

/-! ### Lists of drives -/

/-- The drives of `n` pulses: each drives the line and releases it (R145). -/
def pulseDrives (n : Nat) : List Bit := (List.replicate n [1#1, 0#1]).flatten

@[simp] theorem pulseDrives_zero : pulseDrives 0 = [] := rfl

theorem pulseDrives_add (m n : Nat) : pulseDrives (m + n) = pulseDrives m ++ pulseDrives n := by
  rw [pulseDrives, List.replicate_add, List.flatten_append]
  rfl

@[simp] theorem pulseDrives_count (n : Nat) : (pulseDrives n).count 1#1 = n := by
  induction n with
  | zero => rfl
  | succ n ih => rw [pulseDrives_add, List.count_append, ih]; rfl

/-- The release that starts the boot, in the two branches that run at power-on (R163). -/
def bootRelease : Instr → List Bit
  | .bootPlain | .bootTheme => [0#1]
  | .waitDone | .waitHold | .runTick _ | .idleRest _ | .idleHold _ | .idleLongpress _ | .idleExtreset _ | .selArm
  | .selArmCommit | .selHeld _ | .selQuiet | .selCommit | .selAdvance _ | .tickFault _ _ _ _ _ => []

/-- A release is no pulse. -/
@[simp] theorem bootRelease_count (i : Instr) : (bootRelease i).count 1#1 = 0 := by cases i <;> rfl

/-! ### The drives of the shared procedures -/

theorem suffixEvents_rstDrives (c : Config) (l : Bit) : rstDrives (suffixEvents c l) = pulseDrives 1 := by
  rw [suffixEvents, selfTestEvents, rstDrives_append, rstDrives_append, blinkEvents_rstDrives]
  rfl

theorem commitEvents_rstDrives (s : State) :
    rstDrives (commitEvents s) = pulseDrives (if s.ign = 0#1 then 1 else 0) := by
  have write_silent :
      rstDrives (if s.idx ≠ s.lastSaved then [.evStoreWrite s.cfg.slotIdx (zext8 s.idx)] else []) = [] := by
    split_ifs <;> rfl
  rw [commitEvents, rstDrives_append, write_silent, List.append_nil]
  split_ifs <;> rfl

/-- The double blink is light alone. -/
theorem enterSelect_rstDrives (ign : Bit) (s : State) :
    rstDrives (enterSelect ign s).trace = rstDrives s.trace := by
  rw [enterSelect, feedbackBlink, blink_eq]
  simp [rstDrives_append, blinkEvents_rstDrives]

/-- The indicator update is light alone. -/
theorem tickIndicator_rstDrives (s : State) : rstDrives (tickIndicator s).trace = rstDrives s.trace := by
  unfold tickIndicator
  split
  · simp [State.driveLed, State.emit, rstDrives_append, rstDrives]
  · rfl

theorem tickClose_rstDrives (s : State) : rstDrives (tickClose s).trace = rstDrives s.trace := by
  simp [tickClose_eq, rstDrives_append, rstDrives]

@[simp] theorem branchPulses_drawPins (i : Instr) (s : State) : branchPulses i s.drawPins = branchPulses i s := by
  simp [branchPulses]

@[simp] theorem branchPulses_tickIndicator (i : Instr) (s : State) :
    branchPulses i (tickIndicator s) = branchPulses i s := by
  unfold tickIndicator; split <;> rfl

/-! ### The drives of a branch and of a step -/

/-- What branch `i` adds to the drives: the boot's release, if it starts the boot, then its pulses (R145, R163). -/
def branchDrives (i : Instr) (s : State) : List Bit := bootRelease i ++ pulseDrives (branchPulses i s)

/-- Each branch adds its drives to those so far. -/
theorem exec_rstDrives {s t : State} {i : Instr} (hi : ∀ b, i ≠ .runTick b) (h : exec i s = .next t) :
    rstDrives t.trace = rstDrives s.trace ++ branchDrives i s := by
  cases i with
  | runTick sel => exact absurd rfl (hi sel)
  | bootPlain =>
    rw [exec_bootPlain] at h
    cases h
    simp only [rstDrives_append, suffixEvents_rstDrives]
    rfl
  | bootTheme =>
    rw [exec_bootTheme] at h
    cases h
    exact rstDrives_append _ _
  | waitDone =>
    rw [exec_waitDone] at h
    cases h
    simp only [rstDrives_append, suffixEvents_rstDrives]
    rfl
  | idleLongpress ob => cases h; exact (enterSelect_rstDrives 0#1 _).trans (List.append_nil _).symm
  | idleExtreset ob => cases h; exact (enterSelect_rstDrives 1#1 s).trans (List.append_nil _).symm
  | selCommit | selArmCommit =>
    cases h
    simp only [commit_eq, rstDrives_append, commitEvents_rstDrives]
    rfl
  | waitHold | selAdvance rst | tickFault mode0 ob any rst exp =>
    cases h
    simp [branchDrives, bootRelease, branchPulses, setIndex_eq, State.raiseFaultMode, State.toggleLed, State.driveLed,
      State.driveAddr, State.sleep, State.emit, rstDrives_append, rstDrives]
  | idleRest ob | idleHold ob | selArm | selHeld rst | selQuiet => cases h; exact (List.append_nil _).symm

/-- A step adds its branch's drives, in the boot and in RUN. -/
theorem step_rstDrives {s t : State} {i : Instr} (hstep : step s = .next t) (hi : s.nextBranch = .ok i) :
    rstDrives t.trace = rstDrives s.trace ++ branchDrives i s := by
  obtain ⟨-, notTick⟩ := nextBranch_wellFormed hi
  by_cases hp : s.phase = .run
  · obtain ⟨u, hu, rfl⟩ := step_run_next hp hstep hi
    rw [tickClose_rstDrives, exec_rstDrives notTick hu, tickIndicator_rstDrives, State.drawPins_trace]
    simp [branchDrives]
  · rw [exec_rstDrives notTick (step_boot_next hp hstep hi), State.drawPins_trace]
    simp [branchDrives]

/-- So a step pulses as often as its branch does (R147). -/
theorem step_pulses {s t : State} {i : Instr} (hstep : step s = .next t) (hi : s.nextBranch = .ok i) :
    pulses t.trace = pulses s.trace + branchPulses i s := by
  rw [pulses, step_rstDrives hstep hi, branchDrives, List.count_append, List.count_append, bootRelease_count,
    pulseDrives_count, Nat.zero_add]
  rfl

/-! ### The boot's release and the pairs after it -/

/-- The next branch by the phase: at power-on one of the two that start the boot, while it waits one of the two polls,
in RUN a tick's branch (R71). -/
theorem nextBranch_cases {s : State} {i : Instr} (h : s.nextBranch = .ok i) :
    s.phase = .powerOn ∧ (i = .bootPlain ∨ i = .bootTheme) ∨
      s.phase = .waitRelease ∧ (i = .waitDone ∨ i = .waitHold) ∨ s.phase = .run ∧ s.Selects i := by
  by_cases hp : s.phase = .run
  · exact .inr (.inr ⟨hp, State.selects_of_nextBranch hp h⟩)
  · rw [State.nextBranch_boot s hp, State.phaseBranch_eq, State.drawPins_phase] at h
    injection h with h
    subst h
    cases hphase : s.phase with
    | run => exact absurd hphase hp
    | powerOn => exact .inl ⟨rfl, by dsimp only; split_ifs <;> simp⟩
    | waitRelease => exact .inr (.inl ⟨rfl, by dsimp only; split_ifs <;> simp⟩)

/-- The branches that start the boot run at power-on alone. -/
theorem bootRelease_of_nextBranch {s : State} {i : Instr} (h : s.nextBranch = .ok i) :
    bootRelease i = if s.phase = .powerOn then [0#1] else [] := by
  rcases nextBranch_cases h with ⟨hp, boots⟩ | ⟨hp, polls⟩ | ⟨hp, selected⟩
  · rw [hp]; rcases boots with rfl | rfl <;> rfl
  · rw [hp]; rcases polls with rfl | rfl <;> rfl
  · rw [hp]
    cases i with
    | bootPlain | bootTheme => exact selected.elim
    | waitDone | waitHold | runTick sel | idleRest ob | idleHold ob | idleLongpress ob | idleExtreset ob | selArm
    | selArmCommit | selHeld rst | selQuiet | selCommit | selAdvance rst | tickFault mode0 ob any rst exp => rfl

/-- No step leads to power-on: the boot's first step leaves it, and only a power cycle comes back (R173). -/
theorem step_phase_ne_powerOn {s t : State} {i : Instr} (hstep : step s = .next t) (hi : s.nextBranch = .ok i) :
    t.phase ≠ .powerOn := by
  by_cases hp : s.phase = .run
  · have ticks : t.phase = s.phase := (congrArg Fsm.phase (step_fsm hp hstep hi)).trans (Fsm.after_phase i _)
    simp [ticks, hp]
  · have boots := step_boot_next hp hstep hi
    rcases nextBranch_cases hi with ⟨-, rfl | rfl⟩ | ⟨hwait, rfl | rfl⟩ | ⟨hrun, -⟩
    · rw [exec_bootPlain] at boots; cases boots; exact nofun
    · rw [exec_bootTheme] at boots; cases boots; exact nofun
    · rw [exec_waitDone] at boots; cases boots; exact nofun
    · cases boots
      have waits : s.drawPins.phase = .waitRelease := s.drawPins_phase.trans hwait
      exact fun power => nomatch waits.symm.trans power
    · exact absurd hrun hp

/-- Past the boot's first step the drives are the boot's release and the pairs of the pulses so far (R147). -/
structure DrivesPaired (s : State) : Prop where
  /-- the boot has begun -/
  begun : s.phase ≠ .powerOn
  /-- the release, then pairs -/
  paired : ∃ n, rstDrives s.trace = 0#1 :: pulseDrives n

/-- A boot's first step brings the release, and its pulse if select is not held. -/
theorem DrivesPaired.of_powerOn {s t : State} {i : Instr} (hs : AtPowerOn s) (hstep : step s = .next t)
    (hi : s.nextBranch = .ok i) : DrivesPaired t := by
  obtain ⟨hp, htrace, -⟩ := hs
  refine ⟨step_phase_ne_powerOn hstep hi, branchPulses i s, ?_⟩
  rw [step_rstDrives hstep hi, htrace, branchDrives, bootRelease_of_nextBranch hi, if_pos hp]
  rfl

/-- A later step only adds pairs. -/
theorem DrivesPaired.after_step {s t : State} {i : Instr} (h : DrivesPaired s) (hstep : step s = .next t)
    (hi : s.nextBranch = .ok i) : DrivesPaired t := by
  obtain ⟨begun, n, hn⟩ := h
  refine ⟨step_phase_ne_powerOn hstep hi, n + branchPulses i s, ?_⟩
  rw [step_rstDrives hstep hi, hn, branchDrives, bootRelease_of_nextBranch hi, if_neg begun, pulseDrives_add]
  rfl

theorem DrivesPaired.after_path {s t : State} {is : List Instr} (h : DrivesPaired s) (hpath : Path s is t) :
    DrivesPaired t := by
  induction hpath with
  | nil s => exact h
  | cons hi hstep _ ih => exact ih (h.after_step hstep hi)

/-- The number of the pairs is the number of the pulses. -/
theorem DrivesPaired.rstDrives_eq {s : State} (h : DrivesPaired s) :
    rstDrives s.trace = 0#1 :: pulseDrives (pulses s.trace) := by
  obtain ⟨-, n, hn⟩ := h
  have counted : pulses s.trace = n := by
    rw [pulses, hn, List.count_cons_of_ne (by decide), pulseDrives_count]
  rw [counted, hn]

/-- Settles O41: the step's drives counted; and over a run, the first step's release and every step's pairs. -/
theorem pulsesOnlyAtBootAndUnsuppressedCommit : Obligations.PulsesOnlyAtBootAndUnsuppressedCommit := by
  refine ⟨fun s t i => step_pulses, fun s t is hs nonempty hpath => ?_⟩
  cases hpath with
  | nil => exact absurd rfl nonempty
  | cons hi hstep hrest => exact ((DrivesPaired.of_powerOn hs hstep hi).after_path hrest).rstDrives_eq

end Sys2Proof.Machine
end

section
/-! PROOFS of the indicator's family (O34, O33), spec/44_indicator.md. The level is the xor of two bits, each a condition
in numbers. In a valid mode the tick's first event drives the LED to it, and no branch that a valid mode selects leaves
the LED otherwise than it found it: a toggle sequence has an even number of toggles. -/

namespace Sys2Proof.Machine

/-! ### The level in numbers (R155 to R157) -/

/-- The base colour is lit for a bank other than 0 where the theme asks for it (R156). -/
theorem indicatorBase_eq : ∀ (idx : Bank) (theme : Bit),
    indicatorBase idx theme = bitOf (decide (theme = 1#1 ∧ idx ≠ 0#2)) := by decide

/-- The blink bit as a number's digit (R157). -/
theorem indicatorBlink_eq (b : Timer) : indicatorBlink b = bitOf (decide (b.toNat / 2 % 2 = 1)) := by
  apply BitVec.eq_of_toNat_eq
  rw [indicatorBlink, BitVec.extractLsb'_toNat, Nat.shiftRight_eq_div_pow, bitOf, BitVec.toNat_ofBool]
  rcases Nat.mod_two_eq_zero_or_one (b.toNat / 2) with h | h <;> simp [h]

/-- Settles O33: the xor of the two bits is 1 where one condition holds and not the other. -/
theorem indicatorIsBaseXorBlink : Obligations.IndicatorIsBaseXorBlink := by
  intro idx theme b
  rw [indicator, indicatorBase_eq, indicatorBlink_eq]
  exact BitVec.ofBool_xor_ofBool

/-! ### The level between ticks (R161) -/

/-- A branch selected in a valid mode ends with the LED as it began: the double blink and the pulse's two toggles undo
themselves (R145, R159). -/
theorem exec_ledOut {s u : State} {i : Instr} (hc : s.cfg.wf = true) (hm : s.mode = idleMode ∨ s.mode = selectMode)
    (hi : s.Selects i) (h : exec i s = .next u) : u.ledOut = s.ledOut := by
  cases i with
  | bootPlain | bootTheme | waitDone | waitHold | runTick sel => exact hi.elim
  | idleRest ob | idleHold ob | selArm | selHeld rst | selQuiet => cases h; rfl
  | idleLongpress ob => rw [exec_idleLongpress ob hc] at h; cases h; rfl
  | idleExtreset ob => rw [exec_idleExtreset ob hc] at h; cases h; rfl
  | selAdvance rst => rw [exec_selAdvance] at h; cases h; rfl
  | selCommit => rw [exec_selCommit] at h; cases h; rfl
  | selArmCommit => rw [exec_selArmCommit] at h; cases h; rfl
  | tickFault mode0 ob any rst exp =>
    obtain ⟨notIdle, notSelect⟩ := (invalidMode_iff s.mode).2 hi
    exact absurd hm (not_or.2 ⟨notIdle, notSelect⟩)

/-- In a valid mode the update before W's branch drives the LED to the indicator's level (R100). -/
theorem tickIndicator_ledOut {s : State} (hm : s.mode = idleMode ∨ s.mode = selectMode) :
    (tickIndicator s).ledOut = s.indicatorNow := by
  rw [tickIndicator_valid s hm]

/-- The step's draw of the levels touches nothing that the indicator shows. -/
@[simp] theorem State.drawPins_indicatorNow (s : State) : s.drawPins.indicatorNow = s.indicatorNow := by
  simp [State.indicatorNow]

/-- Settles O34: the update drives the LED to the level, and neither the branch nor the base sleep changes it. -/
theorem ledShowsTheIndicatorBetweenTicks : Obligations.LedShowsTheIndicatorBetweenTicks := by
  intro s t hstep hp hm
  obtain ⟨hc, -⟩ := step_next s t hstep
  obtain ⟨i, hi⟩ : ∃ i, s.drawPins.tickBranch = .ok i := ⟨_, s.drawPins.tickBranch_eq⟩
  obtain ⟨u, hu, rfl⟩ := step_run_next hp hstep ((s.nextBranch_run hp).trans hi)
  have valid : s.drawPins.mode = idleMode ∨ s.drawPins.mode = selectMode := by rwa [s.drawPins_mode]
  have legal : (tickIndicator s.drawPins).cfg.wf = true := by
    rw [(tickIndicator_extends _).cfg, s.drawPins_cfg, hc]
  have selected := State.selects_of_tickBranch ((tickIndicator_tickBranch _).trans hi)
  calc (tickClose u).ledOut
    _ = u.ledOut := rfl
    _ = (tickIndicator s.drawPins).ledOut := exec_ledOut legal (by rwa [tickIndicator_mode]) selected hu
    _ = s.drawPins.indicatorNow := tickIndicator_ledOut valid
    _ = indicator s.idx s.theme s.bTimer := s.drawPins_indicatorNow

end Sys2Proof.Machine
end

section
/-! PROOFS of the boot's family (O27 to O30), spec/45_boot.md. PHASE and the sample select the branch (R71); what the
branches leave are the equations of states that the store's family proved, and WAIT_HOLD's, proved here. -/

namespace Sys2Proof.Machine

/-! ### What Q selects in the boot (R71) -/

theorem phaseBranch_bootPlain {s : State} (hp : s.phase = .powerOn) (hsel : s.sample.1 = 0#1) :
    s.phaseBranch = .ok .bootPlain := by
  simp [State.phaseBranch_eq, hp, hsel]

theorem phaseBranch_bootTheme {s : State} (hp : s.phase = .powerOn) (hsel : s.sample.1 = 1#1) :
    s.phaseBranch = .ok .bootTheme := by
  simp [State.phaseBranch_eq, hp, hsel]

theorem phaseBranch_waitDone {s : State} (hp : s.phase = .waitRelease) (hsel : s.sample.1 = 0#1) :
    s.phaseBranch = .ok .waitDone := by
  simp [State.phaseBranch_eq, hp, hsel]

theorem phaseBranch_waitHold {s : State} (hp : s.phase = .waitRelease) (hsel : s.sample.1 = 1#1) :
    s.phaseBranch = .ok .waitHold := by
  simp [State.phaseBranch_eq, hp, hsel]

/-! ### The wait for the release (R167) -/

/-- WAIT_HOLD, all it leaves. -/
theorem exec_waitHold (s : State) :
    exec .waitHold s = .next { s with trace := s.trace ++ [.evSleep s.cfg.tPollMs] } := rfl

/-- A poll with select held uses up its listed sample, waits on, and does not pulse the reset line. -/
theorem step_waitHold {s : State} {p : Pins} {rest : List Pins} (hc : s.cfg.wf = true) (hp : s.phase = .waitRelease)
    (hstim : s.stimulus = p :: rest) (hsel : p.selN = 0#1) :
    ∃ t, step s = .next t ∧ t.cfg = s.cfg ∧ t.phase = .waitRelease ∧ t.stimulus = rest ∧
      pulses t.trace = pulses s.trace := by
  have drawn := s.drawPins_cons p rest hstim
  have pressed : s.drawPins.sample.1 = 1#1 := by simp [drawn, State.sample, hsel]
  obtain ⟨i, hi, hstep⟩ := step_eq s hc
  rw [phaseBranch_waitHold (s.drawPins_phase.trans hp) pressed] at hi
  cases hi
  rw [exec_waitHold, drawn] at hstep
  exact ⟨_, hstep, rfl, hp, rfl, pulses_append s.trace _⟩

/-- Any number of polls with select held: the boot waits on, and the reset line is not pulsed. -/
theorem runSteps_waitHold (pins : List Pins) {s : State} {rest : List Pins} (hc : s.cfg.wf = true)
    (hp : s.phase = .waitRelease) (hstim : s.stimulus = pins ++ rest) (hsel : ∀ p ∈ pins, p.selN = 0#1) :
    ∃ t, runSteps pins.length s = .next t ∧ t.phase = .waitRelease ∧ pulses t.trace = pulses s.trace := by
  induction pins generalizing s with
  | nil => exact ⟨s, rfl, hp, rfl⟩
  | cons p pins ih =>
    obtain ⟨hfirst, hrest⟩ := List.forall_mem_cons.1 hsel
    obtain ⟨u, hstep, ucfg, uphase, ustim, upulses⟩ := step_waitHold hc hp hstim hfirst
    obtain ⟨t, ht, tphase, tpulses⟩ := ih (ucfg ▸ hc) uphase ustim hrest
    exact ⟨t, by rw [List.length_cons, runSteps_succ _ _ _ hstep, ht], tphase, tpulses.trans upulses⟩

/-! ### The theme slot (R133, R166) -/

/-- An inverted bit as a number. -/
theorem bit_not_toNat : ∀ b : Bit, (~~~b).toNat = 1 - b.toNat := by decide

/-- The bytes of the store after BOOT_THEME: only the theme slot changes, and it reads the inverted theme. -/
theorem bootTheme_reads {s t : State} (hcfg : t.cfg = s.cfg) (hstore : t.store = s.storeAfter .bootTheme) :
    (∀ a, a ≠ s.cfg.slotTheme → Memory.read t.store a = Memory.read s.store a) ∧
    (Memory.wf s.store → (t.memRead .theme).toNat = 1 - s.bootTheme.toNat) := by
  refine ⟨fun a ha => by rw [hstore]; exact Memory.read_write_of_ne _ _ _ _ ha, fun hwf => ?_⟩
  have reads : t.memRead .theme = zext8 (~~~s.bootTheme) := by
    rw [State.memRead, hstore, hcfg]
    exact Memory.read_write_same _ _ _ hwf
  rw [reads, zext8_toNat (by decide), bit_not_toNat]

/-! ### The obligations -/

/-- Settles O27: the word's branch, and the prefix followed by the suffix. -/
theorem bootPlainLoadsPulsesAndStartsIdle : Obligations.BootPlainLoadsPulsesAndStartsIdle :=
  ⟨fun _ => phaseBranch_bootPlain, exec_bootPlain⟩

/-- Settles O28: the word's branch, the state it leaves, and the store's laws for its one write. -/
theorem bootThemeTogglesAndWaits : Obligations.BootThemeTogglesAndWaits := by
  refine ⟨fun _ => phaseBranch_bootTheme, exec_bootTheme, fun s t ht => ?_⟩
  have config : t.cfg = s.cfg := by rw [exec_bootTheme] at ht; cases ht; rfl
  exact bootTheme_reads config (exec_store (by simp) ht)

/-- Settles O29: the word's branch, the state it leaves, and any number of held polls. -/
theorem waitHoldOnlyWaits : Obligations.WaitHoldOnlyWaits :=
  ⟨fun _ => phaseBranch_waitHold, exec_waitHold, fun _ pins _ => runSteps_waitHold pins⟩

/-- Settles O30: the word's branch, and the suffix at the LED level on entry. -/
theorem waitDoneEndsTheBoot : Obligations.WaitDoneEndsTheBoot :=
  ⟨fun _ => phaseBranch_waitDone, exec_waitDone⟩

end Sys2Proof.Machine
end

section
/-! PROOFS of the exceptions' family (O26, O48, O32), spec/60_exceptions.md. A tick in an invalid mode leaves all that
the selection rules speak of, so the next tick finds the same mode (R173); from power-on the invariant keeps the mode
valid (R174); and a power cycle is built from the store, the parameters and the outside's future alone (R184). -/

namespace Sys2Proof.Machine

/-! ### The fault repeats (R173) -/

/-- `t` is `s` after `k` fault ticks: what they leave, and what they add up to (R115, R173). -/
structure FaultTicks (k : Nat) (s t : State) : Prop where
  /-- the registers of the selection rules, the pulses and the writes are as before -/
  fsm : t.fsm = s.fsm
  /-- the store is as before -/
  store : t.store = s.store
  /-- the address outputs are forced by the first fault tick -/
  addrOut : 0 < k → t.addrOut = s.cfg.faultAddr
  /-- the indicator has toggled once a tick -/
  ledOut : t.ledOut = if k % 2 = 0 then s.ledOut else ~~~s.ledOut
  /-- the log has one record a tick -/
  faultLog : t.faultLog = s.faultLog ++ List.replicate k (.faultMode s.mode)

theorem FaultTicks.zero (s : State) : FaultTicks 0 s s := ⟨rfl, rfl, nofun, rfl, (List.append_nil _).symm⟩

/-- A toggle more, by the parity of the toggles so far. -/
theorem toggled_succ (k : Nat) (l : Bit) :
    ~~~(if k % 2 = 0 then l else ~~~l) = if (k + 1) % 2 = 0 then l else ~~~l := by
  rcases Nat.mod_two_eq_zero_or_one k with even | odd
  · rw [if_pos even, if_neg (by omega)]
  · rw [if_neg (by omega), if_pos (by omega), BitVec.not_not]

/-- Fault ticks, and one more. -/
theorem FaultTicks.succ {k : Nat} {s t u : State} (h : FaultTicks k s t) (htu : FaultTicks 1 t u) :
    FaultTicks (k + 1) s u where
  fsm := htu.fsm.trans h.fsm
  store := htu.store.trans h.store
  addrOut _ := (htu.addrOut Nat.one_pos).trans (congrArg (·.cfg.faultAddr) h.fsm)
  ledOut := by
    have toggled : u.ledOut = ~~~t.ledOut := htu.ledOut
    rw [toggled, h.ledOut, toggled_succ]
  faultLog := by
    have mode : t.mode = s.mode := congrArg Fsm.mode h.fsm
    rw [htu.faultLog, h.faultLog, mode, List.append_assoc, List.replicate_append_replicate]

/-- A step in an invalid mode is one fault tick (R115). -/
theorem step_faultTick {s : State} (hc : s.cfg.wf = true) (hp : s.phase = .run)
    (hm : s.mode = 0b10#2 ∨ s.mode = 0b11#2) : ∃ t, step s = .next t ∧ FaultTicks 1 s t := by
  have invalid : s.drawPins.mode = 0b10#2 ∨ s.drawPins.mode = 0b11#2 := by rwa [s.drawPins_mode]
  have selected := State.tickBranch_invalid invalid
  have hi := (s.nextBranch_run hp).trans selected
  have hstep := (step_of_run s hc hp).trans (exec_runTick_of_invalid _ invalid selected (exec_tickFault _ _ _ _ _ _))
  exact ⟨_, hstep, step_fsm hp hstep hi, step_store hstep hi, fun _ => congrArg Config.faultAddr s.drawPins_cfg,
    congrArg (~~~·) s.drawPins_ledOut,
    congrArg₂ (fun log mode => log ++ [FaultRecord.faultMode mode]) s.drawPins_faultLog s.drawPins_mode⟩

/-- Any number of steps in an invalid mode are fault ticks: each leaves the mode that the next one finds. -/
theorem runSteps_faultTicks (k : Nat) {s : State} (hc : s.cfg.wf = true) (hp : s.phase = .run)
    (hm : s.mode = 0b10#2 ∨ s.mode = 0b11#2) : ∃ t, runSteps k s = .next t ∧ FaultTicks k s t := by
  induction k with
  | zero => exact ⟨s, rfl, .zero s⟩
  | succ k ih =>
    obtain ⟨t, ht, ticks⟩ := ih
    have cfg : t.cfg = s.cfg := congrArg Fsm.cfg ticks.fsm
    have phase : t.phase = s.phase := congrArg Fsm.phase ticks.fsm
    have mode : t.mode = s.mode := congrArg Fsm.mode ticks.fsm
    obtain ⟨u, hu, tick⟩ := step_faultTick (cfg ▸ hc) (phase.trans hp) (mode ▸ hm)
    exact ⟨u, runSteps_append_step ht hu, ticks.succ tick⟩

/-- The boot reaches RUN only through its suffix, which sets MODE to Idle (R164). -/
theorem step_boot_ends_idle {s t : State} (hp : s.phase ≠ .run) (hstep : step s = .next t) (hrun : t.phase = .run) :
    t.mode = idleMode := by
  obtain ⟨-, i, hi, boots⟩ := step_next s t hstep
  rcases nextBranch_cases ((s.nextBranch_boot hp).trans hi) with ⟨-, rfl | rfl⟩ | ⟨hwait, rfl | rfl⟩ | ⟨inRun, -⟩
  · rw [exec_bootPlain] at boots; cases boots; rfl
  · rw [exec_bootTheme] at boots; cases boots; cases hrun
  · rw [exec_waitDone] at boots; cases boots; rfl
  · rw [exec_waitHold] at boots; cases boots
    have waits : s.drawPins.phase = .waitRelease := s.drawPins_phase.trans hwait
    exact nomatch waits.symm.trans hrun
  · exact absurd inRun hp

/-! ### No fault from power-on (R174) -/

/-- A fault tick is the next branch only in RUN with an invalid mode (R75, R170). -/
theorem invalidMode_of_nextBranch_tickFault {s : State} {m o a r x : Bit}
    (h : s.nextBranch = .ok (.tickFault m o a r x)) : s.phase = .run ∧ (s.mode = 0b10#2 ∨ s.mode = 0b11#2) := by
  rcases nextBranch_cases h with ⟨-, boots⟩ | ⟨-, polls⟩ | ⟨hp, selected⟩
  · exact absurd boots (by simp)
  · exact absurd polls (by simp)
  · exact ⟨hp, selected⟩

/-- The invariant's valid mode leaves no fault tick to come. -/
theorem Inv.nextBranch_ne_tickFault {s : State} (h : Inv s) (m o a r x : Bit) :
    s.nextBranch ≠ .ok (.tickFault m o a r x) := by
  intro hi
  obtain ⟨hp, invalid⟩ := invalidMode_of_nextBranch_tickFault hi
  obtain ⟨notIdle, notSelect⟩ := (invalidMode_iff s.mode).2 invalid
  obtain ⟨tick, -⟩ := h.ticking hp
  exact absurd tick.modeValid (not_or.2 ⟨notIdle, notSelect⟩)

/-! ### The power cycle (R184) -/

/-- What a power cycle is made of: the store, the parameters and the outside's future. -/
theorem State.powerCycle_congr {s t : State} (hstore : t.store = s.store) (hcfg : t.cfg = s.cfg)
    (hstimulus : t.stimulus = s.stimulus) (hdraws : t.draws = s.draws) : t.powerCycle = s.powerCycle := by
  rw [State.powerCycle, hstore, hcfg, hstimulus, hdraws, State.powerCycle]

/-! ### The obligations -/

/-- Settles O26: the ticks by induction on their number, the boot by its branches. -/
theorem faultRepeatsUntilPowerOff : Obligations.FaultRepeatsUntilPowerOff := by
  refine ⟨fun k s hc hp hm => ?_, fun _ => rfl, fun _ _ => step_boot_ends_idle⟩
  obtain ⟨t, ht, ticks⟩ := runSteps_faultTicks k hc hp hm
  exact ⟨t, ht, (congrArg Fsm.phase ticks.fsm).trans hp, congrArg Fsm.mode ticks.fsm, congrArg Fsm.idx ticks.fsm,
    congrArg Fsm.bTimer ticks.fsm, congrArg Fsm.ob ticks.fsm, congrArg Fsm.ign ticks.fsm,
    congrArg Fsm.theme ticks.fsm, congrArg Fsm.lastSaved ticks.fsm, ticks.store, congrArg Fsm.rstOe ticks.fsm,
    ticks.addrOut, ticks.ledOut, ticks.faultLog⟩

/-- Settles O48: through the invariant of every reachable state. -/
theorem faultUnreachableFromPowerOn : Obligations.FaultUnreachableFromPowerOn :=
  fun _ h => ⟨h.inv.noFault, h.inv.nextBranch_ne_tickFault⟩

/-- Settles O32: the fields of the power cycle, and what it is made of. -/
theorem powerCycleKeepsOnlyTheStore : Obligations.PowerCycleKeepsOnlyTheStore :=
  fun _ => ⟨rfl, rfl, rfl, rfl, rfl, fun legal canonical => ⟨rfl, rfl, rfl, legal, canonical⟩,
    fun _ => State.powerCycle_congr⟩

end Sys2Proof.Machine
end

section
/-! PROOFS of the reset and hazards family (O49, O44), spec/70_reset_and_hazards.md. `State.withUnread` writes
`SameForRules` as an equation: once the levels are drawn, the second state is the first with its unread registers taken
from another state. Each phase's branches are then run from both, and they answer states related alike. A step's
duration is its branch's: each branch's sleeps are summed, with the base sleep where the branch is a tick's. -/

namespace Sys2Proof.Machine

/-! ### The registers no rule reads before they are written (R190, I16) -/

/-- `s` with the two latches of the Select visit taken from `r` (R24, R25). -/
def State.withLatches (s r : State) : State := { s with ob := r.ob, ign := r.ign }

/-- `s` with the registers that the boot suffix writes taken from `r` (R164). -/
def State.withControl (s r : State) : State :=
  { s with mode := r.mode, bTimer := r.bTimer, ob := r.ob, ign := r.ign }

/-- `s` with every register that the boot writes taken from `r` (R38, R163, R164). -/
def State.withRegisters (s r : State) : State :=
  { s with
    mode := r.mode, bTimer := r.bTimer, ob := r.ob, ign := r.ign, idx := r.idx, theme := r.theme
    lastSaved := r.lastSaved, addrOut := r.addrOut, ledOut := r.ledOut, rstOe := r.rstOe }

/-- `s` with the registers that no rule reads in its phase and mode taken from `r`. -/
def State.withUnread (s r : State) : State :=
  match s.phase with
  | .powerOn => s.withRegisters r
  | .waitRelease => s.withControl r
  | .run => if s.mode = selectMode then s else s.withLatches r

theorem State.withUnread_powerOn {s : State} (hp : s.phase = .powerOn) (r : State) :
    s.withUnread r = s.withRegisters r := by
  rw [State.withUnread, hp]

theorem State.withUnread_waitRelease {s : State} (hp : s.phase = .waitRelease) (r : State) :
    s.withUnread r = s.withControl r := by
  rw [State.withUnread, hp]

theorem State.withUnread_select {s : State} (hp : s.phase = .run) (hm : s.mode = selectMode) (r : State) :
    s.withUnread r = s := by
  simp only [State.withUnread, hp, if_pos hm]

theorem State.withUnread_notSelect {s : State} (hp : s.phase = .run) (hm : s.mode ≠ selectMode) (r : State) :
    s.withUnread r = s.withLatches r := by
  simp only [State.withUnread, hp, if_neg hm]

@[simp] theorem State.withUnread_phase (s r : State) : (s.withUnread r).phase = s.phase := by
  unfold State.withUnread; (repeat' split) <;> rfl

@[simp] theorem State.withUnread_sel (s r : State) : (s.withUnread r).sample.1 = s.sample.1 := by
  unfold State.withUnread; (repeat' split) <;> rfl

/-! ### The relation once the levels are drawn -/

theorem SameForRules.refl (s : State) : SameForRules s s where
  sameRun := ⟨rfl, rfl, rfl, rfl, rfl, rfl, rfl⟩
  afterPrefix _ := ⟨rfl, rfl, rfl, rfl, rfl, rfl⟩
  inRun _ := ⟨rfl, rfl, fun _ => ⟨rfl, rfl⟩⟩

/-- The same environment gives both states the same levels (R14). -/
theorem SameForRules.drawPins_levels {s s' : State} (h : SameForRules s s') :
    s'.drawPins.selN = s.drawPins.selN ∧ s'.drawPins.rstOutside = s.drawPins.rstOutside := by
  obtain ⟨-, -, -, -, -, hstimulus, hdraws⟩ := h.sameRun
  unfold State.drawPins
  rw [hstimulus, hdraws]
  split <;> exact ⟨rfl, rfl⟩

/-- The draw touches no register, so it keeps the relation. -/
theorem SameForRules.drawPins {s s' : State} (h : SameForRules s s') : SameForRules s.drawPins s'.drawPins where
  sameRun := by
    obtain ⟨hcfg, hphase, hstore, hlog, htrace, hstimulus, hdraws⟩ := h.sameRun
    simp [*]
  afterPrefix := by simpa using h.afterPrefix
  inRun := by simpa using h.inRun

/-- At equal levels the second state is the first with its unread registers taken from the second: every other field
is one that the relation equates in the phase. -/
theorem SameForRules.eq_withUnread {s s' : State} (h : SameForRules s s')
    (hlevels : s'.selN = s.selN ∧ s'.rstOutside = s.rstOutside) : s' = s.withUnread s' := by
  obtain ⟨sameRun, afterPrefix, inRun⟩ := h
  cases hp : s.phase with
  | powerOn =>
    rw [State.withUnread_powerOn hp]
    cases s; cases s'; simp_all [State.withRegisters]
  | waitRelease =>
    have loaded := afterPrefix (by simp [hp])
    rw [State.withUnread_waitRelease hp]
    cases s; cases s'; simp_all [State.withControl]
  | run =>
    have loaded := afterPrefix (by simp [hp])
    obtain ⟨hmode, hbTimer, latches⟩ := inRun hp
    by_cases hm : s.mode = selectMode
    · rw [State.withUnread_select hp hm]
      cases s; cases s'; simp_all
    · rw [State.withUnread_notSelect hp hm]
      cases s; cases s'; simp_all [State.withLatches]

/-- So at the step's sample point the states differ in unread registers alone. -/
theorem SameForRules.drawPins_eq {s s' : State} (h : SameForRules s s') :
    s'.drawPins = s.drawPins.withUnread s'.drawPins :=
  h.drawPins.eq_withUnread h.drawPins_levels

/-- Outside Select the latches are unread (I16). -/
theorem SameForRules.of_latches {s s' : State} (hm : s.mode ≠ selectMode) (r : State) (h : s' = s.withLatches r) :
    SameForRules s s' :=
  h ▸ ⟨⟨rfl, rfl, rfl, rfl, rfl, rfl, rfl⟩, fun _ => ⟨rfl, rfl, rfl, rfl, rfl, rfl⟩,
    fun _ => ⟨rfl, rfl, fun hselect => absurd hselect hm⟩⟩

/-- While the boot waits, what its suffix writes is unread (R164). -/
theorem SameForRules.of_control {s s' : State} (hp : s.phase = .waitRelease) (r : State) (h : s' = s.withControl r) :
    SameForRules s s' :=
  h ▸ ⟨⟨rfl, rfl, rfl, rfl, rfl, rfl, rfl⟩, fun _ => ⟨rfl, rfl, rfl, rfl, rfl, rfl⟩,
    fun hrun => nomatch hp.symm.trans hrun⟩

/-! ### The boot from both states -/

/-- A branch of the boot's start writes every register but the four that the suffix writes, and BOOT_PLAIN those too
(R165, R166). -/
theorem exec_powerOn_same {s t : State} {i : Instr} (hi : i = .bootPlain ∨ i = .bootTheme) (h : exec i s = .next t)
    (r : State) : Reaches (SameForRules t) (exec i (s.withRegisters r)) := by
  rcases hi with rfl | rfl
  · rw [exec_bootPlain] at h
    cases h
    exact ⟨_, exec_bootPlain _, .refl _⟩
  · rw [exec_bootTheme] at h
    cases h
    exact ⟨_, exec_bootTheme _, .of_control rfl r rfl⟩

/-- A poll reads none of the four registers that the suffix writes (R167, R168). -/
theorem exec_waitRelease_same {s t : State} {i : Instr} (hp : s.phase = .waitRelease)
    (hi : i = .waitDone ∨ i = .waitHold) (h : exec i s = .next t) (r : State) :
    Reaches (SameForRules t) (exec i (s.withControl r)) := by
  rcases hi with rfl | rfl
  · rw [exec_waitDone] at h
    cases h
    exact ⟨_, exec_waitDone _, .refl _⟩
  · rw [exec_waitHold] at h
    cases h
    exact ⟨_, exec_waitHold _, .of_control hp r rfl⟩

/-! ### A tick outside Select from both states -/

/-- A branch with the don't-care bit OB replaced where its row has one (R75). -/
def withOb (o : Bit) : Instr → Instr
  | .idleRest _ => .idleRest o
  | .idleHold _ => .idleHold o
  | .idleLongpress _ => .idleLongpress o
  | .idleExtreset _ => .idleExtreset o
  | .tickFault mode0 _ any rst exp => .tickFault mode0 o any rst exp
  | i => i

/-- Outside Select the latch OB decides no branch: it stands in the don't-care bit alone (R75). -/
theorem tickBranch_withLatches {s : State} {i : Instr} (hm : s.mode ≠ selectMode) (hi : s.tickBranch = .ok i)
    (r : State) : (s.withLatches r).tickBranch = .ok (withOb r.ob i) := by
  rcases mode_cases s.mode with hidle | hselect | hinvalid
  · rw [State.tickBranch_idle hidle] at hi
    cases hi
    rw [State.tickBranch_idle (s := s.withLatches r) hidle]
    show Except.ok (
      if s.sample.2 = 1#1 then _
      else if s.sample.1 = 1#1 then if s.cfg.tLong < (s.bTimer.toNat + 1) % 256 then _ else _
      else _) = _
    split_ifs <;> rfl
  · exact absurd hselect hm
  · rw [State.tickBranch_invalid hinvalid] at hi
    cases hi
    exact State.tickBranch_invalid (s := s.withLatches r) hinvalid

theorem tickIndicator_withLatches (s r : State) :
    tickIndicator (s.withLatches r) = (tickIndicator s).withLatches r := by
  unfold tickIndicator
  show (if validMode s.mode then _ else _) = _
  split <;> rfl

/-- No branch that W selects outside Select reads a latch: a Select entry writes both, the others carry both on
(R102 to R105, R115). -/
theorem exec_notSelect_same {s u : State} {i : Instr} (hc : s.cfg.wf = true) (hm : s.mode ≠ selectMode)
    (hi : s.Selects i) (h : exec i s = .next u) (r : State) :
    Reaches (SameForRules u) (exec (withOb r.ob i) (s.withLatches r)) := by
  cases i with
  | bootPlain | bootTheme | waitDone | waitHold | runTick sel => exact hi.elim
  | selArm | selArmCommit | selQuiet | selCommit | selHeld rst | selAdvance rst => exact absurd hi.1 hm
  | idleRest ob =>
    cases h; exact ⟨_, exec_idleRest _ _, .of_latches hm r rfl⟩
  | idleHold ob =>
    cases h; exact ⟨_, exec_idleHold _ _, .of_latches hm r rfl⟩
  | idleLongpress ob =>
    rw [exec_idleLongpress ob hc] at h
    cases h
    exact ⟨_, exec_idleLongpress (s := s.withLatches r) _ hc, .refl _⟩
  | idleExtreset ob =>
    rw [exec_idleExtreset ob hc] at h
    cases h
    exact ⟨_, exec_idleExtreset (s := s.withLatches r) _ hc, .refl _⟩
  | tickFault mode0 ob any rst exp =>
    rw [exec_tickFault] at h
    cases h
    exact ⟨_, exec_tickFault _ _ _ _ _ _, .of_latches hm r rfl⟩

/-- The base sleep reads only the parameters (R100). -/
theorem SameForRules.tickClose {s s' : State} (h : SameForRules s s') : SameForRules (tickClose s) (tickClose s') where
  sameRun := by
    obtain ⟨hcfg, hphase, hstore, hlog, htrace, hstimulus, hdraws⟩ := h.sameRun
    simp [Machine.tickClose, *]
  afterPrefix := h.afterPrefix
  inRun := h.inRun

/-- A whole tick outside Select reads neither latch (R100). -/
theorem exec_runTick_same {s t : State} (sel : Bit) (hc : s.cfg.wf = true) (hm : s.mode ≠ selectMode)
    (h : exec (.runTick sel) s = .next t) (r : State) :
    Reaches (SameForRules t) (exec (.runTick sel) (s.withLatches r)) := by
  obtain ⟨i, hi⟩ : ∃ i, s.tickBranch = .ok i := ⟨_, s.tickBranch_eq⟩
  rw [execRunTick_eq sel s i hi] at h
  obtain ⟨u, hu, rfl⟩ := (thenDo_next _ _ t).1 h
  have selected := State.selects_of_tickBranch ((tickIndicator_tickBranch s).trans hi)
  obtain ⟨u', hu', same⟩ := exec_notSelect_same (by rwa [(tickIndicator_extends s).cfg])
    (by rwa [tickIndicator_mode]) selected hu r
  refine ⟨tickClose u', ?_, same.tickClose⟩
  rw [execRunTick_eq sel _ _ (tickBranch_withLatches hm hi r), tickIndicator_withLatches, hu']
  rfl

/-! ### The step from both states -/

/-- The branch that Q selects runs alike from both states, by the phase. -/
theorem exec_phaseBranch_same {s t : State} {i : Instr} (hc : s.cfg.wf = true) (hi : s.phaseBranch = .ok i)
    (h : exec i s = .next t) (r : State) : Reaches (SameForRules t) (exec i (s.withUnread r)) := by
  rw [State.phaseBranch_eq] at hi
  injection hi with hi
  cases hp : s.phase with
  | powerOn =>
    rw [State.withUnread_powerOn hp]
    exact exec_powerOn_same (by rw [← hi, hp]; dsimp only; split_ifs <;> simp) h r
  | waitRelease =>
    rw [State.withUnread_waitRelease hp]
    exact exec_waitRelease_same hp (by rw [← hi, hp]; dsimp only; split_ifs <;> simp) h r
  | run =>
    by_cases hm : s.mode = selectMode
    · rw [State.withUnread_select hp hm]
      exact ⟨t, h, .refl t⟩
    · rw [State.withUnread_notSelect hp hm]
      rw [hp] at hi
      subst hi
      exact exec_runTick_same _ hc hm h r

/-- Q is formed from PHASE and the drawn level alone (R70). -/
theorem phaseBranch_withUnread (s r : State) : (s.withUnread r).phaseBranch = s.phaseBranch := by
  rw [State.phaseBranch_eq, State.phaseBranch_eq, State.withUnread_phase, State.withUnread_sel]

/-- Settles O49: at the sample point the second state is the first but for unread registers, so Q selects the same
branch, which runs alike. -/
theorem unwrittenRegistersAreNeverRead : Obligations.UnwrittenRegistersAreNeverRead := by
  intro s s' t same hstep
  obtain ⟨hc, i, hi, hexec⟩ := step_next s t hstep
  obtain ⟨t', ht', same'⟩ := exec_phaseBranch_same (by rwa [s.drawPins_cfg]) hi hexec s'.drawPins
  rw [← same.drawPins_eq] at ht'
  refine ⟨t', ?_, same'⟩
  obtain ⟨hcfg, -⟩ := same.sameRun
  obtain ⟨j, hj, hstep'⟩ := step_eq s' (hcfg ▸ hc)
  rw [same.drawPins_eq, phaseBranch_withUnread, hi] at hj
  injection hj with hj
  rw [hstep', ← hj, ht']

/-! ### The duration of the procedures (R198, R200) -/

theorem pulseEvents_duration (c : Config) (l : Bit) :
    duration (pulseEvents c l) = c.tPulseAMs + c.tPulseBMs + c.tPostMs := by
  simp [pulseEvents, duration, Event.ms, Nat.add_assoc]

theorem prefixEvents_duration (c : Config) (i : Bank) : duration (prefixEvents c i) = c.tSettleMs := by
  simp [prefixEvents, duration, Event.ms]

theorem suffixEvents_duration (c : Config) (l : Bit) : duration (suffixEvents c l) =
    c.tPulseAMs + c.tPulseBMs + c.tPostMs + 2 * c.selftestCycles * c.tSelftestHalfMs + c.tBootSettleMs := by
  rw [suffixEvents, duration_append, duration_append, pulseEvents_duration, selfTestEvents, blinkEvents_duration]
  rfl

/-- The write of a commit takes no time (R55). -/
theorem commit_duration (s : State) : duration (commit s).trace =
    duration s.trace + if s.ign = 0#1 then s.cfg.tPulseAMs + s.cfg.tPulseBMs + s.cfg.tPostMs else 0 := by
  have write_silent :
      duration (if s.idx ≠ s.lastSaved then [.evStoreWrite s.cfg.slotIdx (zext8 s.idx)] else []) = 0 := by
    split_ifs <;> rfl
  rw [commit_eq, duration_append, commitEvents, duration_append, write_silent, apply_ite duration,
    pulseEvents_duration]
  rfl

theorem enterSelect_duration (ign : Bit) (s : State) :
    duration (enterSelect ign s).trace = duration s.trace + s.cfg.fbToggles * s.cfg.tFbMs := by
  rw [enterSelect, feedbackBlink, blink_eq, duration_append, blinkEvents_duration]

theorem tickIndicator_duration (s : State) : duration (tickIndicator s).trace = duration s.trace := by
  unfold tickIndicator
  split
  · exact duration_append _ _
  · rfl

theorem tickClose_duration (s : State) : duration (tickClose s).trace = duration s.trace + s.cfg.tTickMs :=
  duration_append _ _

@[simp] theorem branchDuration_drawPins (i : Instr) (s : State) : branchDuration i s.drawPins = branchDuration i s := by
  simp [branchDuration]

@[simp] theorem branchDuration_tickIndicator (i : Instr) (s : State) :
    branchDuration i (tickIndicator s) = branchDuration i s := by
  unfold tickIndicator; split <;> rfl

/-! ### The duration of a step -/

/-- A branch of the boot takes what the table says (R200). -/
theorem exec_boot_duration {s t : State} {i : Instr}
    (hi : (i = .bootPlain ∨ i = .bootTheme) ∨ (i = .waitDone ∨ i = .waitHold)) (h : exec i s = .next t) :
    duration t.trace = duration s.trace + branchDuration i s := by
  rcases hi with (rfl | rfl) | (rfl | rfl)
  · rw [exec_bootPlain] at h
    cases h
    rw [duration_append, duration_append, prefixEvents_duration, suffixEvents_duration]
    rfl
  · rw [exec_bootTheme] at h
    cases h
    rw [duration_append, duration_append, prefixEvents_duration]
    simp [duration, Event.ms, branchDuration]
  · rw [exec_waitDone] at h
    cases h
    rw [duration_append, suffixEvents_duration]
    rfl
  · rw [exec_waitHold] at h
    cases h
    exact duration_append _ _

/-- A branch of the tick takes what the table says, with the base sleep that closes the tick (R100, R200). -/
theorem exec_tick_duration {s u : State} {i : Instr} (hi : s.Selects i) (h : exec i s = .next u) :
    duration (tickClose u).trace = duration s.trace + branchDuration i s := by
  cases i with
  | bootPlain | bootTheme | waitDone | waitHold | runTick sel => exact hi.elim
  | idleRest ob | idleHold ob | selArm | selHeld rst | selQuiet => cases h; exact tickClose_duration _
  | idleLongpress ob | idleExtreset ob =>
    cases h
    rw [tickClose_duration, enterSelect_duration, (enterSelect_extends _ _).cfg, Nat.add_assoc]
    rfl
  | selAdvance rst =>
    rw [exec_selAdvance] at h
    cases h
    rw [tickClose_duration, duration_append, Nat.add_assoc]
    simp [duration, Event.ms, branchDuration]
  | selCommit | selArmCommit =>
    cases h
    rw [tickClose_duration, commit_duration, (commit_extends _).cfg, Nat.add_assoc]
    rfl
  | tickFault mode0 ob any rst exp =>
    rw [exec_tickFault] at h
    cases h
    rw [tickClose_duration, duration_append]
    rfl

/-- A step takes what the table says of its branch, in the boot and in RUN. -/
theorem step_duration {s t : State} {i : Instr} (hstep : step s = .next t) (hi : s.nextBranch = .ok i) :
    duration t.trace = duration s.trace + branchDuration i s := by
  have boots (hp : s.phase ≠ .run) (branch : (i = .bootPlain ∨ i = .bootTheme) ∨ (i = .waitDone ∨ i = .waitHold)) :
      duration t.trace = duration s.trace + branchDuration i s := by
    rw [exec_boot_duration branch (step_boot_next hp hstep hi), State.drawPins_trace, branchDuration_drawPins]
  rcases nextBranch_cases hi with ⟨hp, branch⟩ | ⟨hp, branch⟩ | ⟨hp, -⟩
  · exact boots (by simp [hp]) (.inl branch)
  · exact boots (by simp [hp]) (.inr branch)
  · obtain ⟨u, hu, rfl⟩ := step_run_next hp hstep hi
    rw [State.nextBranch_run s hp, ← tickIndicator_tickBranch] at hi
    rw [exec_tick_duration (State.selects_of_tickBranch hi) hu, tickIndicator_duration, State.drawPins_trace,
      branchDuration_tickIndicator, branchDuration_drawPins]

/-- Settles O44: the step by its branch, and the defaults by evaluation. -/
theorem stepDurationsAreTheTable : Obligations.StepDurationsAreTheTable := by
  refine ⟨fun s t i => step_duration, fun s hs ob => ?_⟩
  by_cases hign : s.ign = 0#1 <;> simp [branchDuration, hs, Config.default, hign]

end Sys2Proof.Machine
end
